-- ==== Sys2Proof/Word.lean ====
section
/-! DEFINITION. The words of the FE4220: what the manual treats as bits is a bit vector of the manual's width, and
what it only counts or numbers is a bounded number. -/

namespace Sys2Proof

/-- One byte of the port window. -/
abbrev Byte := BitVec 8

/-- A 16-bit field: a notice's value, the settings generation, the GEN latch (R160, R172, R173). -/
abbrev Half := BitVec 16

/-- The 24-bit name of a record (R2). -/
abbrev Key := BitVec 24

/-- A value of the exchange time counter, and every stored time and period (R106). -/
abbrev Time := BitVec 32

/-- A sequence number; 0 stands for "no version yet" (R38). -/
abbrev Seq := BitVec 32

/-- A window address, 00H to 7FH (R166). -/
abbrev Addr := BitVec 7

/-- One of the 64 slots of the SDIR (R1). -/
abbrev SlotNo := Fin 64

/-- One of the 384 cells of the CST (R7). -/
abbrev CellNo := Fin 384

/-- One of the 16 positions of the request table (R133). -/
abbrev EntryNo := Fin 16

end Sys2Proof
end

