-- ==== Sys2Proof/Syntax.lean ====
section
/-! DEFINITION. The commands of the FE4220: one constructor of `Instr` for each row of spec/opcode_table.json.
A command is an event of the part, whole and indivisible: a pin edge, the completion of one byte of a port's
transaction, or an event of one of the part's own blocks. -/

namespace Sys2Proof

/-- The four ports, peers of one another (00, "The four ports"). -/
inductive Port where
  | a | b | c | d
  deriving DecidableEq, Repr

/-- The commands. A byte event carries its port, and for a written byte the value. The 23 commands of R169 are write
bytes at 60H to 76H: `v` is the byte written, whose value the part does not use. -/
inductive Instr where
  -- resets and pins (R149, R165, R175)
  | powerOn
  | resetAssert
  | resetRelease
  | portsReady
  | prstxAssert (p : Port)
  | prstxRelease (p : Port)
  -- the transaction (R166, R177)
  | chipSelectAssert (p : Port)
  | addressByte (p : Port) (b : Byte)
  | chipSelectDeassert (p : Port)
  -- write bytes (R32, R167, R168)
  | argWrite (p : Port) (v : Byte)
  | windowWriteIgnored (p : Port) (v : Byte)
  | stageData (p : Port) (v : Byte)
  -- read bytes (R77, R96, R97, R108, R171, R172)
  | notice (p : Port)
  | readData (p : Port)
  | readHdr (p : Port)
  | statusRead (p : Port)
  | timeCapture (p : Port)
  | genCapture (p : Port)
  -- port life cycle (R152, R153, R155)
  | join (p : Port) (v : Byte)
  | leave (p : Port) (v : Byte)
  | doze (p : Port) (v : Byte)
  -- barrier and settings (R68, R159 to R162)
  | go (p : Port) (v : Byte)
  | runTransition
  | setExchange (p : Port) (v : Byte)
  | setQueue (p : Port) (v : Byte)
  -- a port's own settings (R48, R49, R83)
  | setFilter (p : Port) (v : Byte)
  | clearFilter (p : Port) (v : Byte)
  | setIrq (p : Port) (v : Byte)
  -- records (R3, R16, R20, R24)
  | claim (p : Port) (v : Byte)
  | release (p : Port) (v : Byte)
  | adopt (p : Port) (v : Byte)
  | lookup (p : Port) (v : Byte)
  -- updates and commits (R30, R31, R35, R39, R44)
  | openUpdate (p : Port) (v : Byte)
  | selectStage (p : Port) (v : Byte)
  | abandon (p : Port) (v : Byte)
  | commit (p : Port) (v : Byte)
  | commitGroup (p : Port) (v : Byte)
  -- limit watch (R123, R124)
  | setWatch (p : Port) (v : Byte)
  | clearWatch (p : Port) (v : Byte)
  -- fetch and requests (R93, R136, R141)
  | fetch (p : Port) (v : Byte)
  | request (p : Port) (v : Byte)
  | cancelRequest (p : Port) (v : Byte)
  -- the part's own events (R21, R56, R95, R105, R111, R117)
  | tick
  | scanVisitSlot
  | scanVisitEntry
  | orphaning (p : Port)
  | distributionEvent
  | copyCompletion
  deriving DecidableEq, Repr

end Sys2Proof
end

