-- ==== Sys2Proof/Config.lean ====
section
/-! DEFINITION. What is fixed for the FE4220: its capacities and bounds. The manual leaves no value of the part to
the implementation that an event reads, so there is no free value here (log 7, log 10). -/

namespace Sys2Proof.Config

/-- Cells of the Cell Store (R7). -/
def cellCount : Nat := 384

/-- Jobs that the distribution job queue holds at most (R53). -/
def jobCapacity : Nat := 16

/-- Open updates of one port at most (R27). -/
def openCapacity : Nat := 8

/-- Waiting request entries in all, and of one port, at most (R133). -/
def requestCapacity : Nat := 16

def requestCapacityPerPort : Nat := 4

/-- Bytes of a payload at most (R7). -/
def payloadCapacity : Nat := 32

/-- The longest period and orphan hold, 2^24 ticks (R14, R159). -/
def maxPeriod : Nat := 16777216

/-- The largest run of a watch (R128). -/
def maxRun : Nat := 7

/-- Positions of the scan: 64 slots, then 16 request entries (R109). -/
def scanLength : Nat := 80

/-- What the VERSION byte reads (R172). -/
def versionByte : Byte := 0x22

end Sys2Proof.Config
end

