-- ==== Sys2Proof/Decode.lean ====
section
/-! DEFINITION. Decoding of table words. No row of spec/opcode_table.json gives bits ("fields" is empty and "fixed" is
absent in every row), so no word spells a command and every word is refused (log 12). How a byte of the port window
spells one of the 23 commands is the window's own decoding, in Machine/Operands.lean (R169). -/

namespace Sys2Proof

/-- The command that a word of the opcode table spells: none, for every word. -/
def decodeTableWord (_nbits _w : Nat) : Option Instr := none

end Sys2Proof
end

