-- ==== Sys2Proof/Machine/State.lean ====
section
/-! DEFINITION. The state of the FE4220, block by block, as plain data, and its value right after reset. A field that
the manual calls absent in some states of its owner (R1, R90) stands inside the alternative in which it is present. -/

namespace Sys2Proof.Machine

/-! ### Exchange Control -/

/-- The exchange mode (R160, R164). -/
inductive Mode where
  | setup | run
  deriving DecidableEq, Repr

/-- The state of a port (R148). -/
inductive PortState where
  | offline | active | doze | leaving
  deriving DecidableEq, Repr

/-- The tick period setting (R159). -/
inductive TickPeriod where
  | us1 | us10 | us100 | ms1
  deriving DecidableEq, Repr

/-- The 23 commands a controller issues by a write at a command address (R169), in the order of their addresses. -/
inductive Command where
  | join | leave | doze | go | setExchange | setQueue | setFilter | clearFilter | setIrq
  | claim | release | adopt | lookup | openUpdate | selectStage | abandon | commit | commitGroup
  | setWatch | clearWatch | fetch | request | cancelRequest
  deriving DecidableEq, Repr

/-- The result codes (R170). -/
inductive Result where
  | none | ok | retry | busy | notJoined | notOffline | wrongMode | badArg | noSlot | noCells | keyInUse
  | notOrphaned | notProducer | notOpen | alreadyOpen | tooManyOpen | cellPending | overrun | noVersion
  | notLive | gone | fetchBusy | pending | notPending | tableFull | staleSettings
  deriving DecidableEq, Repr

/-! ### Notices and filters -/

/-- The delivery options of a filter (R47). -/
structure Options where
  pub : Bool
  coalesce : Bool
  inlined : Bool
  status : Bool
  limits : Bool
  wake : Bool
  deriving DecidableEq, Repr

/-- The empty option set. -/
def Options.empty : Options :=
  { pub := false, coalesce := false, inlined := false, status := false, limits := false, wake := false }

/-- One filter of a port (R47). -/
structure Filter where
  enabled : Bool
  key : Key
  mask : Key
  options : Options
  deriving DecidableEq, Repr

/-- A filter after reset and after a LEAVING entry (R47). -/
def Filter.cleared : Filter := { enabled := false, key := 0, mask := 0, options := .empty }

/-- The notice kinds (R173). EMPTY is no entry of a queue, so it is no kind here. -/
inductive NoticeKind where
  | published | stale | limit | request | answer | requestEnded | appeared | orphaned | adopted | withdrawn
  | overflow | mode | voteCleared
  deriving DecidableEq, Repr

/-- The class of a notice at its admission (R57). -/
inductive NoticeClass where
  | urgent | normal
  deriving DecidableEq, Repr

/-- One notice with its two stored attributes (R58, R67). `slot` and `incarnation` are the bytes the notice shows;
`data` is the time-or-data field. -/
structure Notice where
  kind : NoticeKind
  slot : Byte
  incarnation : Byte
  more : Bool
  recovered : Bool
  inlined : Bool
  wake : Bool
  coalesced : Bool
  detail : BitVec 2
  value : Half
  data : Half
  cls : NoticeClass
  coalescible : Bool
  deriving DecidableEq, Repr

/-- What the DU hands to the NQM for one port: one notice, or the block of a group job (R57). -/
inductive Handed where
  | one (n : Notice)
  | block (ns : List Notice)
  deriving DecidableEq, Repr

/-- The interrupt settings of a port (R67, R83). -/
structure IrqSettings where
  urgent : Bool
  level : Bool
  fetch : Bool
  levelAt : Nat
  deriving DecidableEq, Repr

/-- The default interrupt settings (R82, R88). -/
def IrqSettings.default : IrqSettings := { urgent := true, level := true, fetch := true, levelAt := 1 }

/-- The notice queue of a port and the state that governs it (R67). `accepting` is the admission state. -/
structure Queue where
  entries : List Notice
  depth : Nat
  threshold : Nat
  accepting : Bool
  wakePending : Bool
  irq : IrqSettings
  deriving DecidableEq, Repr

/-! ### Cells, slots and watches -/

/-- The tag of a version committed by a group (R45). -/
structure GroupTag where
  port : Port
  count : Byte
  deriving DecidableEq, Repr

/-- The content record of a cell (R7). The payload is the cell's 32 bytes; the version is its first `length`. -/
structure Content where
  sequence : Seq
  commitTime : Time
  length : Nat
  payload : Vector Byte 32
  tag : Option GroupTag
  deriving DecidableEq, Repr

/-- One cell of the Cell Store (R7). -/
structure Cell where
  content : Content
  pins : Nat
  deriving DecidableEq, Repr

/-- A cell no commit has written. DESIGN CHOICE: its contents are zero; nothing reads them (log 7). -/
def Cell.blank : Cell :=
  { content := { sequence := 0, commitTime := 0, length := 0, payload := Vector.replicate 32 0, tag := none },
    pins := 0 }

/-- An open update (R28). -/
structure Update where
  length : Nat
  overrun : Bool
  deriving DecidableEq, Repr

/-- The cell beside versions and spares: the staging cell with the slot's update, or the owed cell, under which the
update is closed (R1, R12). -/
inductive NextCell where
  | staging (c : CellNo) (update : Option Update)
  | owed (c : CellNo)
  deriving DecidableEq, Repr

/-- The sides of a limit watch (R121, R127). -/
inductive Side where
  | inside | low | high
  deriving DecidableEq, Repr

/-- The width of a watched field (R121). -/
inductive WatchWidth where
  | bits8 | bits16
  deriving DecidableEq, Repr

/-- A watch record (R121). -/
structure Watch where
  offset : Nat
  width : WatchWidth
  signed : Bool
  low : Int
  high : Int
  confirm : Nat
  state : Side
  candidate : Side
  run : Nat
  deriving DecidableEq, Repr

/-- The states of a slot that has a producer (R6). -/
inductive Stage where
  | claimed | live | stale
  deriving DecidableEq, Repr

/-- The state of a slot that is not FREE, with the fields present in it alone (R1): producer and deadline, or the time
since when it is an orphan. -/
inductive Life where
  | produced (stage : Stage) (producer : Port) (deadline : Option Time)
  | orphaned (since : Time)
  deriving DecidableEq, Repr

/-- The fields of a slot that is not FREE (R1). -/
structure Record where
  key : Key
  depth : Nat
  versions : List CellNo
  next : NextCell
  spares : List CellNo
  lastSequence : Seq
  period : Time
  autoAnswer : Bool
  life : Life
  watch : Option Watch
  deriving DecidableEq, Repr

/-- A slot: its incarnation, and its record unless it is FREE (R1, R4). -/
structure Slot where
  incarnation : Byte
  record : Option Record
  deriving DecidableEq, Repr

/-- A slot after reset (R26). -/
def Slot.free : Slot := { incarnation := 0, record := none }

/-! ### Jobs and requests -/

/-- The items every job about a record captures (R55). -/
structure Subject where
  key : Key
  slot : SlotNo
  incarnation : Byte
  deriving DecidableEq, Repr

/-- What a PUBLISH job captures about one committed slot (R41). -/
structure Published where
  subject : Subject
  producer : Port
  sequence : Seq
  commitTime : Time
  byte0 : Byte
  byte1 : Byte
  recovered : Bool
  limit : Option Side
  answered : List Port
  deriving DecidableEq, Repr

/-- A job of the distribution job queue with its captured items (R55). A PUBLISH job of one member is a one-slot job
(R46). -/
inductive Job where
  | publish (members : List Published)
  | stale (about : Subject) (producer : Port) (lastSequence : Seq) (time : Time)
  | answerNow (about : Subject) (requester : Port) (sequence : Seq) (commitTime : Time) (byte0 byte1 : Byte)
  | requestFwd (about : Subject) (producer : Port) (lastSequence : Seq) (issueTime : Time)
  | requestEnd (about : Subject) (requester : Port) (lastSequence : Seq) (time : Time)
  | appear (about : Subject) (producer : Port) (time : Time)
  | orphan (about : Subject) (lastSequence : Seq) (since : Time) (ended : List Port)
  | adopt (about : Subject) (producer : Port) (time : Time)
  | withdraw (about : Subject) (lastSequence : Seq) (time : Time) (ended : List Port)
  | mode (generation : Half) (ports : List Port)
  | votesCleared (generation : Half) (ports : List Port)
  deriving DecidableEq, Repr

/-- A waiting request entry (R133). -/
structure Entry where
  requester : Port
  slot : SlotNo
  incarnation : Byte
  issueTime : Time
  deadline : Time
  deriving DecidableEq, Repr

/-! ### The port interface unit -/

/-- The copy phase of a fetch in flight (R90). -/
inductive CopyPhase where
  | waiting | copying
  deriving DecidableEq, Repr

/-- The fetch state of a port; IN_FLIGHT has its copy phase and pinned cell (R90). -/
inductive FetchState where
  | idle
  | inFlight (phase : CopyPhase) (cell : CellNo)
  | ready
  deriving DecidableEq, Repr

/-- The header of the read buffer (R90, R95). -/
structure Header where
  slot : Byte
  sequence : Seq
  commitTime : Time
  length : Nat
  tag : Option GroupTag
  deriving DecidableEq, Repr

/-- The header of a cleared read buffer (R90). -/
def Header.cleared : Header := { slot := 0, sequence := 0, commitTime := 0, length := 0, tag := none }

/-- A NOTICE group: the eight bytes captured, whether a head entry was captured (or EMPTY), and which of the eight
bytes shifts out (R77 to R79). -/
structure NoticeGroup where
  image : Vector Byte 8
  held : Bool
  index : Fin 8
  deriving DecidableEq, Repr

/-- The effect a read byte has at its completion, decided when its value was fixed (R166). -/
inductive ReadEffect where
  | none
  | clearSticky
  | consume
  | underrun
  | endReady
  | noticeByte (g : NoticeGroup)
  deriving DecidableEq, Repr

/-- A read byte that is fixed and not yet complete (R166). -/
structure ReadByte where
  value : Byte
  effect : ReadEffect
  deriving DecidableEq, Repr

/-- The transaction of a port (R166): chip-select deasserted; chip-select asserted in a transaction the part ignores
(log 9); awaiting the address byte; writing or reading at an address; or discarding what follows a command (R169). -/
inductive Transaction where
  | idle
  | ignored
  | address
  | write (at_ : Addr)
  | read (at_ : Addr) (byte : ReadByte)
  | discarding
  deriving DecidableEq, Repr

/-- All that the part holds for one port: its PIU (R27, R90, R108, R166 to R172), its state in XC (R148), its filters
(R47), its queue (R67) and its PRSTx input (R149). -/
structure PortUnit where
  state : PortState
  vote : Bool
  args : Vector Byte 12
  result : Result
  rdata : Vector Byte 10
  openList : List SlotNo
  stagingPointer : Option SlotNo
  writeDenied : Bool
  groupCounter : Byte
  fetch : FetchState
  fetchedSlot : Option SlotNo
  header : Header
  payload : List Byte
  valid : Nat
  underrun : Bool
  discarded : Bool
  timeLatch : Time
  genLatch : Half
  filters : Vector Filter 8
  queue : Queue
  prst : Bool
  transaction : Transaction
  deriving DecidableEq, Repr

/-- A port after power-on and after assertion of the RESET pin, its PRSTx released and chip-select deasserted (R27,
R47, R88, R90, R119, R164, R168, R170, R172; the pin levels are log 8). -/
def PortUnit.reset : PortUnit :=
  { state := .offline, vote := false, args := Vector.replicate 12 0, result := .none,
    rdata := Vector.replicate 10 0, openList := [], stagingPointer := none, writeDenied := false,
    groupCounter := 0, fetch := .idle, fetchedSlot := none, header := .cleared, payload := [], valid := 0,
    underrun := false, discarded := false, timeLatch := 0, genLatch := 0,
    filters := Vector.replicate 8 .cleared,
    queue := { entries := [], depth := 32, threshold := 24, accepting := false, wakePending := false,
               irq := .default },
    prst := false, transaction := .idle }

/-! ### The whole part -/

/-- The requesters of the transfer path (R101). -/
inductive Requester where
  | du
  | port (p : Port)
  deriving DecidableEq, Repr

/-- The state of the part. `pending` is the queue of commands that wait, front first (log 12). `path` is the holder of
the transfer path; `scan` is a slot below 64, then a request position (R109). -/
structure State where
  pending : List Instr
  resetPin : Bool
  ready : Bool
  mode : Mode
  tickPeriod : TickPeriod
  answerTimeout : Half
  orphanHold : Time
  generation : Half
  portA : PortUnit
  portB : PortUnit
  portC : PortUnit
  portD : PortUnit
  slots : Vector Slot 64
  cells : Vector Cell 384
  free : List CellNo
  detached : List CellNo
  jobs : List Job
  path : Option Requester
  lastGranted : Requester
  requests : Vector (Option Entry) 16
  etc : Time
  prescaler : Nat
  scan : Fin 80
  deriving DecidableEq, Repr

/-- The part right after power-on, with the pins released and nothing waiting (R26, R53, R103, R119, R147, R159, R164,
R165). The ports are not yet ready for transactions: DESIGN CHOICE, log 8. -/
def State.reset : State :=
  { pending := [], resetPin := false, ready := false, mode := .setup, tickPeriod := .ms1, answerTimeout := 100,
    orphanHold := 0, generation := 1, portA := .reset, portB := .reset, portC := .reset, portD := .reset,
    slots := Vector.replicate 64 .free, cells := Vector.replicate 384 .blank, free := List.finRange 384,
    detached := [], jobs := [], path := none, lastGranted := .du, requests := Vector.replicate 16 none,
    etc := 0, prescaler := 0, scan := 0 }

/-- Why a step can fault: for no reason. The manual gives every command an effect in every state (log 15), so nobody
raises a fault and the type is empty. Safe: there is no fault to miss. -/
inductive Fault where
  deriving DecidableEq, Repr

/-- Why a step can be refused. -/
inductive Refusal where
  /-- Raised by `exec` alone, for a command that has no meaning yet; no arm raises it now. Safe: a refused command
  proves nothing about the hardware. -/
  | notModelled (mnemonic : String)
  deriving DecidableEq, Repr

end Sys2Proof.Machine
end

