-- ==== Sys2Proof/Machine/Ops.lean ====
section
/-! DEFINITION. The shared operations of the part: access to ports, slots, cells and request positions; the transfer
path; pins and the routing of cells; jobs; updates; requests; and the LEAVING entry with the checks it makes. -/

namespace Sys2Proof.Machine

/-! ### Access -/

/-- The four ports, in the manual's listing order. -/
def allPorts : List Port := [.a, .b, .c, .d]

/-- The 64 slots, lowest number first. -/
def allSlots : List SlotNo := List.finRange 64

/-- The 16 request positions, lowest number first. -/
def allEntries : List EntryNo := List.finRange 16

def State.port (s : State) : Port → PortUnit
  | .a => s.portA
  | .b => s.portB
  | .c => s.portC
  | .d => s.portD

def State.setPort (s : State) (p : Port) (u : PortUnit) : State :=
  match p with
  | .a => { s with portA := u }
  | .b => { s with portB := u }
  | .c => { s with portC := u }
  | .d => { s with portD := u }

/-- Change one port's unit. -/
def State.updatePort (s : State) (p : Port) (f : PortUnit → PortUnit) : State := s.setPort p (f (s.port p))

/-- Change every port's unit. -/
def State.updatePorts (s : State) (f : Port → PortUnit → PortUnit) : State :=
  { s with portA := f .a s.portA, portB := f .b s.portB, portC := f .c s.portC, portD := f .d s.portD }

def State.slot (s : State) (k : SlotNo) : Slot := s.slots[k]

def State.setSlot (s : State) (k : SlotNo) (x : Slot) : State := { s with slots := s.slots.set k x }

/-- The record of a slot; none when the slot is FREE. -/
def State.record (s : State) (k : SlotNo) : Option Record := (s.slot k).record

/-- Replace the record of a slot; the incarnation keeps its value (R1, R4). -/
def State.setRecord (s : State) (k : SlotNo) (r : Option Record) : State :=
  s.setSlot k { s.slot k with record := r }

def State.cell (s : State) (c : CellNo) : Cell := s.cells[c]

def State.setCell (s : State) (c : CellNo) (x : Cell) : State := { s with cells := s.cells.set c x }

def State.entry (s : State) (i : EntryNo) : Option Entry := s.requests[i]

def State.setEntry (s : State) (i : EntryNo) (e : Option Entry) : State :=
  { s with requests := s.requests.set i e }

/-- The producer of a slot: none in FREE and in ORPHANED (R1). -/
def Record.producer (r : Record) : Option Port :=
  match r.life with
  | .produced _ p _ => some p
  | .orphaned _ => none

def State.producer (s : State) (k : SlotNo) : Option Port :=
  match s.record k with
  | some r => r.producer
  | none => none

/-- The slots a port produces, lowest number first (R157). -/
def State.producedSlots (s : State) (p : Port) : List SlotNo := allSlots.filter fun k => s.producer k == some p

/-- What a job about a slot captures of its name (R55). -/
def State.subject (s : State) (k : SlotNo) (r : Record) : Subject :=
  { key := r.key, slot := k, incarnation := (s.slot k).incarnation }

/-- A slot is ORPHANED (R6). -/
def Record.isOrphan (r : Record) : Bool :=
  match r.life with
  | .produced _ _ _ => false
  | .orphaned _ => true

/-- The slot that is not FREE and holds the key, if any; at most one does (R2). -/
def State.slotWithKey (s : State) (k : Key) : Option SlotNo :=
  allSlots.find? fun i =>
    match s.record i with
    | some r => r.key == k
    | none => false

/-- The ORPHANED slot that holds the key, if any (R23). -/
def State.orphanWithKey (s : State) (k : Key) : Option SlotNo :=
  allSlots.find? fun i =>
    match s.record i with
    | some r => r.key == k && r.isOrphan
    | none => false

/-- The lowest-numbered FREE slot (R17). -/
def State.lowestFreeSlot (s : State) : Option SlotNo := allSlots.find? fun i => (s.record i).isNone

/-! ### Time -/

/-- A stored time has been reached (R107). -/
def reached (now t : Time) : Bool := (now - t).toNat < 2 ^ 31

/-- The sequence number after `q`; 4,294,967,295 is followed by 1 (R38). -/
def nextSequence (q : Seq) : Seq := if q = BitVec.allOnes 32 then 1 else q + 1

/-- CLKIN cycles per tick (R105). -/
def TickPeriod.cycles : TickPeriod → Nat
  | .us1 => 16
  | .us10 => 160
  | .us100 => 1600
  | .ms1 => 16000

/-- A tick: the prescaler passes to 0 and the ETC is incremented modulo 2^32, in RUN only (R104, R105). -/
def State.tickNow (s : State) : State :=
  match s.mode with
  | .setup => s
  | .run => { s with etc := s.etc + 1, prescaler := 0 }

/-- One CLKIN cycle: in RUN the prescaler counts, and passing from N - 1 to 0 is a tick (R105). It is what a step does
when no command waits (log 6). -/
def State.clkinCycle (s : State) : State :=
  match s.mode with
  | .setup => s
  | .run =>
    if s.prescaler + 1 < s.tickPeriod.cycles then { s with prescaler := s.prescaler + 1 } else s.tickNow

/-! ### The transfer path (R101, R102) -/

/-- A requester waits for the transfer path (R101). -/
def State.waits (s : State) : Requester → Bool
  | .du => !s.jobs.isEmpty && s.path != some .du
  | .port p =>
    match (s.port p).fetch with
    | .inFlight .waiting _ => true
    | .inFlight .copying _ => false
    | .idle => false
    | .ready => false

/-- The cyclic order DU, A, B, C, D, starting after the last granted requester (R101). -/
def Requester.orderAfter : Requester → List Requester
  | .du => [.port .a, .port .b, .port .c, .port .d, .du]
  | .port .a => [.port .b, .port .c, .port .d, .du, .port .a]
  | .port .b => [.port .c, .port .d, .du, .port .a, .port .b]
  | .port .c => [.port .d, .du, .port .a, .port .b, .port .c]
  | .port .d => [.du, .port .a, .port .b, .port .c, .port .d]

/-- A grant moves a port's copy phase to COPYING (R94). -/
def FetchState.granted : FetchState → FetchState
  | .inFlight _ c => .inFlight .copying c
  | .idle => .idle
  | .ready => .ready

/-- Grant the path to a requester (R101). -/
def State.grantTo (s : State) (r : Requester) : State :=
  let s := { s with path := some r, lastGranted := r }
  match r with
  | .du => s
  | .port p => s.updatePort p fun u => { u with fetch := u.fetch.granted }

/-- The BMA's grant: made when the path is free and a requester waits (R101). -/
def State.grant (s : State) : State :=
  match s.path with
  | some _ => s
  | none =>
    match s.lastGranted.orderAfter.find? s.waits with
    | some r => s.grantTo r
    | none => s

/-! ### The distribution job queue (R53, R54) -/

/-- The DJQ has room for a job (R54). -/
def State.hasRoom (s : State) : Bool := decide (s.jobs.length < Config.jobCapacity)

/-- A job joins the queue at its tail, and the DU requests the path (R53, R56, R101). -/
def State.admitJob (s : State) (j : Job) : State := State.grant { s with jobs := s.jobs ++ [j] }

/-! ### Cells and pins (R8, R9, R19) -/

/-- Raise the pin count of a cell (R8). -/
def State.pinCell (s : State) (c : CellNo) : State := s.setCell c { s.cell c with pins := (s.cell c).pins + 1 }

/-- The slot whose owed cell a cell is. -/
def State.slotOwing (s : State) (c : CellNo) : Option SlotNo :=
  allSlots.find? fun k =>
    match s.record k with
    | some r => r.next == .owed c
    | none => false

/-- The routing of a cell whose last pin was dropped: a detached cell returns to the pool, an owed cell becomes its
slot's staging cell, a version stays (R9). -/
def State.routeUnpinned (s : State) (c : CellNo) : State :=
  if s.detached.contains c then { s with detached := s.detached.erase c, free := s.free ++ [c] }
  else
    match s.slotOwing c with
    | none => s
    | some k =>
      match s.record k with
      | none => s
      | some r => s.setRecord k (some { r with next := .staging c none })

/-- Drop one pin of a cell, with the routing of R9 at the last. -/
def State.unpinCell (s : State) (c : CellNo) : State :=
  let t := s.setCell c { s.cell c with pins := (s.cell c).pins - 1 }
  if (s.cell c).pins = 1 then t.routeUnpinned c else t

/-- The cells of a record: its versions, its spare cells, and its staging or owed cell (R10). -/
def NextCell.cell : NextCell → CellNo
  | .staging c _ => c
  | .owed c => c

def Record.cells (r : Record) : List CellNo := r.versions ++ r.spares ++ [r.next.cell]

/-- Free a slot: its unpinned cells return to the pool, its pinned cells become detached (R19). -/
def State.freeSlot (s : State) (k : SlotNo) : State :=
  match s.record k with
  | none => s
  | some r =>
    let pinned := r.versions.filter fun c => decide (0 < (s.cell c).pins)
    let unpinned := r.versions.filter fun c => decide ((s.cell c).pins = 0)
    let t := s.setRecord k none
    match r.next with
    | .staging c _ => { t with free := t.free ++ unpinned ++ r.spares ++ [c], detached := t.detached ++ pinned }
    | .owed c => { t with free := t.free ++ unpinned ++ r.spares, detached := t.detached ++ pinned ++ [c] }

/-! ### Updates (R36) -/

/-- The open update of a record, if its update is open (R28). -/
def Record.openUpdate (r : Record) : Option Update :=
  match r.next with
  | .staging _ u => u
  | .owed _ => none

/-- A record with its update closed (R36). -/
def Record.closed (r : Record) : Record :=
  match r.next with
  | .staging c _ => { r with next := .staging c none }
  | .owed _ => r

/-- The update of a slot is closed, on the slot. -/
def State.closeOnSlot (s : State) (k : SlotNo) : State :=
  match s.record k with
  | none => s
  | some r => s.setRecord k (some r.closed)

/-- The slot leaves the port's open list, and the staging pointer if it named the slot (R36). -/
def PortUnit.dropOpen (u : PortUnit) (k : SlotNo) : PortUnit :=
  { u with openList := u.openList.filter (fun x => x != k),
           stagingPointer := if u.stagingPointer = some k then none else u.stagingPointer }

/-- Close the update of slot `k` that port `p` holds (R36). -/
def State.closeUpdate (s : State) (p : Port) (k : SlotNo) : State :=
  (s.closeOnSlot k).updatePort p fun u => u.dropOpen k

/-! ### Requests (R133, R134) -/

/-- Empty every position whose entry satisfies `f`. -/
def State.removeEntries (s : State) (f : Entry → Bool) : State :=
  { s with requests := Vector.ofFn fun i : Fin 16 =>
      match s.requests[i] with
      | some e => if f e then none else some e
      | none => none }

/-- The waiting entries, lowest position first. -/
def State.waitingEntries (s : State) : List Entry := allEntries.filterMap s.entry

/-- An entry waits on this slot and incarnation (R139). -/
def Entry.waitsOn (e : Entry) (k : SlotNo) (inc : Byte) : Bool := e.slot == k && e.incarnation == inc

/-- The requesters of the entries that wait on a slot (R139, R142). The manual gives their list no order; lowest position
first is the model's choice (log 18). -/
def State.requestersOn (s : State) (k : SlotNo) : List Port :=
  (s.waitingEntries.filter fun e => e.waitsOn k (s.slot k).incarnation).map fun e => e.requester

/-- End every entry that waits on a slot (R139, R142). -/
def State.endEntriesOn (s : State) (k : SlotNo) : State :=
  s.removeEntries fun e => e.waitsOn k (s.slot k).incarnation

/-- The count of a port's waiting entries (R134). -/
def State.requestCount (s : State) (p : Port) : Nat :=
  (s.waitingEntries.filter fun e => e.requester == p).length

/-- The lowest-numbered empty position (R134). -/
def State.lowestEmptyEntry (s : State) : Option EntryNo := allEntries.find? fun i => (s.entry i).isNone

/-! ### The barrier (R162) -/

/-- The ports that are ACTIVE (R162), in the manual's listing order, which is the model's choice (log 18). -/
def State.activePorts (s : State) : List Port := allPorts.filter fun p => (s.port p).state == .active

/-- At least one port is ACTIVE, and every ACTIVE port has cast its vote (R162). -/
def State.barrierHolds (s : State) : Bool :=
  !s.activePorts.isEmpty && s.activePorts.all fun p => (s.port p).vote

/-- The effects of the RUN transition (R162). -/
def State.enterRun (s : State) : State :=
  let t := s.updatePorts fun _ u => { u with vote := false }
  State.admitJob { t with mode := .run, etc := 0, prescaler := 0, scan := 0 } (.mode s.generation s.activePorts)

/-- The check of the barrier: the RUN transition is taken in SETUP when the barrier holds and the DJQ has room
(R162). -/
def State.checkBarrier (s : State) : State :=
  match s.mode with
  | .run => s
  | .setup => if s.barrierHolds && s.hasRoom then s.enterRun else s

/-! ### Settings writes (R160) -/

/-- The ports whose GO votes stand (R160), in the manual's listing order, which is the model's choice (log 18). -/
def State.votedPorts (s : State) : List Port := allPorts.filter fun p => (s.port p).vote

/-- A settings write needs a VOTES_CLEARED job when a vote stands, and so room for it (R159, R160). -/
def State.settingsRoom (s : State) : Bool := s.votedPorts.isEmpty || s.hasRoom

/-- A settings write raises the generation and clears every vote, with a VOTES_CLEARED job if one stood (R160). -/
def State.settingsWritten (s : State) : State :=
  let t := s.updatePorts fun _ u => { u with vote := false }
  let t := { t with generation := s.generation + 1 }
  if s.votedPorts.isEmpty then t else t.admitJob (.votesCleared (s.generation + 1) s.votedPorts)

/-! ### The LEAVING entry (R156) -/

/-- What the LEAVING entry clears in the queue; depth and threshold are kept (R82). -/
def Queue.emptied (q : Queue) : Queue :=
  { q with entries := [], accepting := false, wakePending := false, irq := .default }

/-- Clear the read buffer (R90, R99). -/
def PortUnit.clearBuffer (u : PortUnit) : PortUnit :=
  { u with fetchedSlot := none, header := .cleared, payload := [], valid := 0 }

/-- What the LEAVING entry does in the port's own unit (R156). -/
def PortUnit.left (u : PortUnit) : PortUnit :=
  { u.clearBuffer with
    state := .leaving, vote := false, filters := Vector.replicate 8 .cleared, queue := u.queue.emptied,
    openList := [], stagingPointer := none, fetch := .idle }

/-- The cancellation of a port's fetch outside its own unit: its pin is dropped, and its copy frees the path (R99). -/
def State.cancelFetch (s : State) (f : FetchState) : State :=
  match f with
  | .idle => s
  | .ready => s
  | .inFlight .waiting c => s.unpinCell c
  | .inFlight .copying c => State.unpinCell { s with path := none } c

/-- A port in LEAVING that produces no slot becomes OFFLINE (R157). -/
def State.settleLeaving (s : State) (p : Port) : State :=
  if (s.port p).state = .leaving ∧ s.producedSlots p = [] then
    s.updatePort p fun u => { u with state := .offline }
  else s

/-- The LEAVING entry of a port, as one event (R156): its updates closed, its entries removed, its own state cleaned
up, its fetch cancelled, OFFLINE at once if it produces no slot, the barrier checked in SETUP, and the path granted. -/
def State.leavingEntry (s : State) (p : Port) : State :=
  let u := s.port p
  let s := u.openList.foldl State.closeOnSlot s
  let s := s.removeEntries fun e => e.requester == p
  let s := s.updatePort p PortUnit.left
  let s := s.cancelFetch u.fetch
  let s := s.settleLeaving p
  s.checkBarrier.grant

/-! ### Results (R170) -/

/-- The ten RDATA bytes of a result: the bytes given, then 00H (R170). -/
def rdataOf (data : List Byte) : Vector Byte 10 := Vector.ofFn fun i : Fin 10 => data.getD i 0

/-- Write RESULT and RDATA (R170). -/
def State.setResult (s : State) (p : Port) (r : Result) (data : List Byte) : State :=
  s.updatePort p fun u => { u with result := r, rdata := rdataOf data }

/-- A port in DOZE that writes a command returns to ACTIVE, wake pending cleared (R154). -/
def PortUnit.endDoze (u : PortUnit) : PortUnit :=
  match u.state with
  | .doze => { u with state := .active, queue := { u.queue with wakePending := false } }
  | .offline => u
  | .active => u
  | .leaving => u

/-- The port's SPI pins are decoded: neither RESET nor the port's PRSTx is asserted (R149, R165). -/
def State.decodes (s : State) (p : Port) : Bool := !s.resetPin && !(s.port p).prst

/-! ### Bytes, most significant first (R168) -/

def bytes16 (w : BitVec 16) : List Byte := [w.extractLsb' 8 8, w.extractLsb' 0 8]

def bytes32 (w : BitVec 32) : List Byte :=
  [w.extractLsb' 24 8, w.extractLsb' 16 8, w.extractLsb' 8 8, w.extractLsb' 0 8]

/-- The low 16 bits of a sequence number or a time (R58). -/
def low16 (w : BitVec 32) : Half := w.extractLsb' 0 16

def flagByte (b : Bool) : Byte := if b then 1 else 0

/-- The code of a port (R169). -/
def portCode : Port → Byte
  | .a => 0
  | .b => 1
  | .c => 2
  | .d => 3

/-- The byte at a place of a cell's payload that lies inside the version; 00H beyond its length (R41, R55). -/
def Content.byteAt (x : Content) (i : Nat) : Byte := if i < x.length then x.payload.toList.getD i 0 else 0

/-- The bytes of a version (R95). -/
def Content.bytes (x : Content) : List Byte := x.payload.toList.take x.length

end Sys2Proof.Machine
end

