-- ==== Sys2Proof/Machine/Operands.lean ====
section
/-! DEFINITION. The port window: what each address is, which row of the table a byte at an address belongs to, the
argument fields of the commands, and the port and mode checks every command passes first. -/

namespace Sys2Proof.Machine

/-! ### Addresses (R166, R167, R169) -/

/-- The address of a command (R169). -/
def Command.address : Command → Addr
  | .join => 0x60
  | .leave => 0x61
  | .doze => 0x62
  | .go => 0x63
  | .setExchange => 0x64
  | .setQueue => 0x65
  | .setFilter => 0x66
  | .clearFilter => 0x67
  | .setIrq => 0x68
  | .claim => 0x69
  | .release => 0x6A
  | .adopt => 0x6B
  | .lookup => 0x6C
  | .openUpdate => 0x6D
  | .selectStage => 0x6E
  | .abandon => 0x6F
  | .commit => 0x70
  | .commitGroup => 0x71
  | .setWatch => 0x72
  | .clearWatch => 0x73
  | .fetch => 0x74
  | .request => 0x75
  | .cancelRequest => 0x76

/-- The address of the next byte of a transaction: READ_DATA, STAGE_DATA and NOTICE do not advance, and 7FH is
followed by 00H (R166). -/
def nextAddress (a : Addr) : Addr := if a = 0x2E ∨ a = 0x2F ∨ a = 0x30 then a else a + 1

/-- The rows of the table that a read byte can belong to, by its address (log 3). -/
inductive ReadRow where
  | statusRead | genCapture | timeCapture | readHdr | readData | notice
  deriving DecidableEq, Repr

/-- The row of a read byte. READ_HDR, READ_DATA and NOTICE have their own areas (R167). The byte at 1BH fixes the
first GEN byte and the byte at 1DH the first TIME byte (R176), so 1BH to 1CH are GEN_CAPTURE's and 1DH to 21H
TIME_CAPTURE's. STATUS_READ stands for every other read byte: DESIGN CHOICE, log 3. -/
def readRow (a : Addr) : ReadRow :=
  if a = 0x1B ∨ a = 0x1C then .genCapture
  else if 0x1D ≤ a ∧ a ≤ 0x21 then .timeCapture
  else if 0x22 ≤ a ∧ a ≤ 0x2D then .readHdr
  else if a = 0x2E then .readData
  else if a = 0x30 then .notice
  else .statusRead

/-- The rows of the table that a write byte can belong to, by its address (R167). -/
inductive WriteRow where
  | arg | stage | command | ignored
  deriving DecidableEq, Repr

def writeRow (a : Addr) : WriteRow :=
  if 0x10 ≤ a ∧ a ≤ 0x1B then .arg
  else if a = 0x2F then .stage
  else if 0x60 ≤ a ∧ a ≤ 0x76 then .command
  else .ignored

/-- The ARG byte at an argument address (R167, R168). -/
def argIndex (a : Addr) : Fin 12 := Fin.ofNat 12 (a.toNat - 0x10)

/-! ### Argument fields, most significant byte first (R168) -/

def PortUnit.arg8 (u : PortUnit) (i : Fin 12) : Byte := u.args[i]

def PortUnit.arg16 (u : PortUnit) (i j : Fin 12) : BitVec 16 := u.args[i] ++ u.args[j]

def PortUnit.arg24 (u : PortUnit) (i j k : Fin 12) : BitVec 24 := u.args[i] ++ u.args[j] ++ u.args[k]

def PortUnit.arg32 (u : PortUnit) (i j k l : Fin 12) : BitVec 32 :=
  u.args[i] ++ u.args[j] ++ u.args[k] ++ u.args[l]

/-- A slot number argument: none above 63 (R5). -/
def slotArg (b : Byte) : Option SlotNo := if h : b.toNat < 64 then some ⟨b.toNat, h⟩ else none

/-- A filter number argument: none above 7 (R48, R49). -/
def filterArg (b : Byte) : Option (Fin 8) := if h : b.toNat < 8 then some ⟨b.toNat, h⟩ else none

/-- An argument of 0 or 1: none for any other value (R15, R83, R122). -/
def boolArg (b : Byte) : Option Bool := if b = 0 then some false else if b = 1 then some true else none

/-- The tick period code (R159). -/
def tickArg (b : Byte) : Option TickPeriod :=
  if b = 0 then some .us1
  else if b = 1 then some .us10
  else if b = 2 then some .us100
  else if b = 3 then some .ms1
  else none

/-- The options argument; a 1 in bit 6 or 7 names no option (R48, R169). -/
def optionsArg (b : Byte) : Option Options :=
  if b.getLsbD 6 || b.getLsbD 7 then none
  else some { pub := b.getLsbD 0, coalesce := b.getLsbD 1, inlined := b.getLsbD 2, status := b.getLsbD 3,
              limits := b.getLsbD 4, wake := b.getLsbD 5 }

/-- The select of a FETCH (R91). -/
inductive Select where
  | latest | oldest | seq
  deriving DecidableEq, Repr

/-- The select argument (R91, R169). -/
def selectArg (b : Byte) : Option Select :=
  if b = 0 then some .latest else if b = 1 then some .oldest else if b = 2 then some .seq else none

/-- The width argument of SET_WATCH (R122). -/
def widthArg (b : Byte) : Option WatchWidth := if b = 8 then some .bits8 else if b = 16 then some .bits16 else none

/-- Bytes of a watched field (R122). -/
def WatchWidth.bytes : WatchWidth → Nat
  | .bits8 => 1
  | .bits16 => 2

/-- A 16-bit limit argument read in the signedness given (R122). -/
def limitArg (signed : Bool) (w : BitVec 16) : Int := if signed then w.toInt else w.toNat

/-- A limit lies in the range of the field (R122). -/
def limitInRange (width : WatchWidth) (signed : Bool) (x : Int) : Bool :=
  match width, signed with
  | .bits8, false => decide (0 ≤ x ∧ x ≤ 255)
  | .bits8, true => decide (-128 ≤ x ∧ x ≤ 127)
  | .bits16, false => decide (0 ≤ x ∧ x ≤ 65535)
  | .bits16, true => decide (-32768 ≤ x ∧ x ≤ 32767)

/-! ### The slot check (R5) -/

/-- A slot argument and an incarnation argument: the slot and its record, or BAD_ARG or GONE (R5). -/
def State.checkSlot (s : State) (slotByte incByte : Byte) : Except Result (SlotNo × Record) :=
  match slotArg slotByte with
  | none => .error .badArg
  | some k =>
    match s.record k with
    | none => .error .gone
    | some r => if (s.slot k).incarnation = incByte then .ok (k, r) else .error .gone

/-- The slot check, and that the calling port is the producer (R18, R29, R31, R35, R37). -/
def State.checkProducer (s : State) (p : Port) (slotByte incByte : Byte) : Except Result (SlotNo × Record) :=
  match s.checkSlot slotByte incByte with
  | .error e => .error e
  | .ok (k, r) => if r.producer = some p then .ok (k, r) else .error .notProducer

/-! ### The port check and the mode check (R150, R151) -/

/-- The port check, made after the return from DOZE (R150). -/
def Command.portCheck (c : Command) (st : PortState) : Option Result :=
  match st with
  | .leaving => some .busy
  | .offline => if c = .join then none else some .notJoined
  | .active => if c = .join then some .notOffline else none
  | .doze => if c = .join then some .notOffline else none

/-- The four classes of commands (R151). -/
inductive CommandClass where
  | lifeCycle | dozing | settings | ownSettings | slot
  deriving DecidableEq, Repr

/-- The class of a command; DOZE stands apart in its class (R151). -/
def Command.cls : Command → CommandClass
  | .join => .lifeCycle
  | .leave => .lifeCycle
  | .doze => .dozing
  | .go => .settings
  | .setExchange => .settings
  | .setQueue => .settings
  | .setFilter => .ownSettings
  | .clearFilter => .ownSettings
  | .setIrq => .ownSettings
  | .claim => .slot
  | .release => .slot
  | .adopt => .slot
  | .lookup => .slot
  | .openUpdate => .slot
  | .selectStage => .slot
  | .abandon => .slot
  | .commit => .slot
  | .commitGroup => .slot
  | .setWatch => .slot
  | .clearWatch => .slot
  | .fetch => .slot
  | .request => .slot
  | .cancelRequest => .slot

/-- The mode check (R151). -/
def Command.modeCheck (c : Command) (m : Mode) : Option Result :=
  match c.cls, m with
  | .lifeCycle, _ => none
  | .ownSettings, _ => none
  | .dozing, .setup => some .wrongMode
  | .dozing, .run => none
  | .settings, .setup => none
  | .settings, .run => some .wrongMode
  | .slot, .setup => some .wrongMode
  | .slot, .run => none

/-- The port check, then the mode check (R150, R151). -/
def Command.check (c : Command) (st : PortState) (m : Mode) : Option Result :=
  match c.portCheck st with
  | some r => some r
  | none => c.modeCheck m

/-- What the block that owns a command answers: a refusal, or the state after the command and its result data. -/
inductive Reply where
  | refuse (r : Result)
  | take (s : State) (data : List Byte)

/-- The port's transaction is a write that stands at this address, and its pins are decoded (R149, R166). -/
def State.writesAt (s : State) (p : Port) (a : Addr) : Bool :=
  s.decodes p && (match (s.port p).transaction with
    | .write x => x == a
    | _ => false)

/-- A command taken in hand: the rest of its transaction is discarded, and DOZE ends (R154, R169). -/
def State.handCommand (s : State) (p : Port) : State :=
  s.updatePort p fun u => { u.endDoze with transaction := .discarding }

/-- The outcome of a command written to RESULT and RDATA (R169, R170). -/
def State.conclude (s : State) (p : Port) : Reply → State
  | .refuse r => s.setResult p r []
  | .take t data => t.setResult p .ok data

/-- The issue of a command by the write byte at its address (R169): the port check and the mode check of Exchange
Control, then the checks and the taking of the owning block, `body`, then the result. A byte that cannot complete at
that address changes nothing (log 2). -/
def State.issue (s : State) (p : Port) (c : Command) (body : State → Reply) : State :=
  if s.writesAt p c.address then
    let t := s.handCommand p
    match c.check (t.port p).state t.mode with
    | some r => t.conclude p (.refuse r)
    | none => t.conclude p (body t)
  else s

end Sys2Proof.Machine
end

