-- ==== Sys2Proof/Machine/Fetching.lean ====
section
/-! DEFINITION. FETCH and the completion of its copy (R90 to R103). -/

namespace Sys2Proof.Machine

/-- The version a select chooses from a list, oldest first (R92). -/
def State.chooseVersion (s : State) (sel : Select) (low : Half) (vs : List CellNo) : Option CellNo :=
  match sel with
  | .latest => vs.getLast?
  | .oldest => vs.head?
  | .seq => vs.find? fun c => low16 (s.cell c).content.sequence == low

/-- A FETCH of slot `k` taken on a version's cell, in the port's unit (R93): the flag for unread bytes, the buffer
cleared, the request of the path. -/
def PortUnit.fetchTaken (u : PortUnit) (k : SlotNo) (c : CellNo) : PortUnit :=
  { u.clearBuffer with
    discarded := u.discarded || (u.fetch == .ready && decide (0 < u.valid)),
    fetchedSlot := some k, fetch := .inFlight .waiting c }

/-- A fetch is in flight (R90). -/
def FetchState.isInFlight : FetchState → Bool
  | .inFlight _ _ => true
  | .idle => false
  | .ready => false

/-- FETCH, ARG0 slot, ARG1 incarnation, ARG2 select, ARG3-4 sequence (R91 to R93). -/
def State.fetchBody (p : Port) (s : State) : Reply :=
  let u := s.port p
  match slotArg (u.arg8 0), selectArg (u.arg8 2) with
  | some _, some sel =>
    match s.checkSlot (u.arg8 0) (u.arg8 1) with
    | .error e => .refuse e
    | .ok (k, r) =>
      if u.fetch.isInFlight then .refuse .fetchBusy
      else
        match s.chooseVersion sel (u.arg16 3 4) r.versions with
        | none => .refuse .noVersion
        | some c =>
          .take ((s.pinCell c).updatePort p fun u => u.fetchTaken k c).grant (bytes32 (s.cell c).content.sequence)
  | _, _ => .refuse .badArg

def execFetch (p : Port) (_v : Byte) (s : State) : Host.Outcome State Fault Refusal :=
  .next (s.issue p .fetch (State.fetchBody p))

/-- The slot byte of the header: the fetched slot, as given in the FETCH (R95). -/
def fetchedByte (k : Option SlotNo) : Byte :=
  match k with
  | some k => BitVec.ofNat 8 k.val
  | none => 0

/-- The completion of a copy in the port's unit: header and payload of the version, READY (R95). -/
def PortUnit.delivered (u : PortUnit) (x : Content) : PortUnit :=
  { u with
    header := { slot := fetchedByte u.fetchedSlot, sequence := x.sequence, commitTime := x.commitTime,
                length := x.length, tag := x.tag },
    payload := x.bytes, valid := x.length, fetch := .ready }

/-- COPY_COMPLETION: the fetch copy that holds the transfer path completes (R95). -/
def execCopyCompletion (s : State) : Host.Outcome State Fault Refusal :=
  .next (match s.path with
    | some (.port p) =>
      match (s.port p).fetch with
      | .inFlight .copying c =>
        let t := s.updatePort p fun u => u.delivered (s.cell c).content
        State.grant { t.unpinCell c with path := none }
      | .inFlight .waiting _ => s
      | .idle => s
      | .ready => s
    | some .du => s
    | none => s)

end Sys2Proof.Machine
end

