-- ==== Sys2Proof/Machine/LifeCycle.lean ====
section
/-! DEFINITION. The commands of the port life cycle, the barrier and the settings, and a port's own settings (R48, R49,
R68, R83, R152 to R155, R159 to R162). -/

namespace Sys2Proof.Machine

/-- JOIN taken: the port is ACTIVE with no vote and its queue accepting, wake pending clear (R81, R88, R152). -/
def PortUnit.joined (u : PortUnit) : PortUnit :=
  { u with state := .active, vote := false, queue := { u.queue with accepting := true, wakePending := false } }

/-- JOIN (R152). -/
def execJoin (p : Port) (_v : Byte) (s : State) : Host.Outcome State Fault Refusal :=
  .next (s.issue p .join fun t => .take (t.updatePort p PortUnit.joined) [])

/-- LEAVE: the LEAVING entry of the calling port (R155). -/
def execLeave (p : Port) (_v : Byte) (s : State) : Host.Outcome State Fault Refusal :=
  .next (s.issue p .leave fun t => .take (t.leavingEntry p) [])

/-- DOZE taken: the port dozes with wake pending cleared (R86, R153). -/
def PortUnit.dozed (u : PortUnit) : PortUnit :=
  { u with state := .doze, queue := { u.queue with wakePending := false } }

/-- DOZE (R153). -/
def execDoze (p : Port) (_v : Byte) (s : State) : Host.Outcome State Fault Refusal :=
  .next (s.issue p .doze fun t => .take (t.updatePort p PortUnit.dozed) [])

/-- GO, ARG0-1 generation: the vote is cast and the barrier checked (R161). -/
def State.goBody (p : Port) (s : State) : Reply :=
  if (s.port p).arg16 0 1 = s.generation then
    .take (s.updatePort p fun u => { u with vote := true }).checkBarrier []
  else .refuse .staleSettings

def execGo (p : Port) (_v : Byte) (s : State) : Host.Outcome State Fault Refusal := .next (s.issue p .go (State.goBody p))

/-- RUN_TRANSITION: the check of the barrier, which takes the transition where it can be taken (R162). The events of
R162 that check the barrier make the same check themselves (log 5). -/
def execRunTransition (s : State) : Host.Outcome State Fault Refusal := .next s.checkBarrier

/-- SET_EXCHANGE, ARG0 tick period code, ARG1-2 answer timeout, ARG3-6 orphan hold (R159). -/
def State.setExchangeBody (p : Port) (s : State) : Reply :=
  let u := s.port p
  match tickArg (u.arg8 0) with
  | none => .refuse .badArg
  | some period =>
    if u.arg16 1 2 = 0 then .refuse .badArg
    else if Config.maxPeriod < (u.arg32 3 4 5 6).toNat then .refuse .badArg
    else if s.settingsRoom then
      .take (State.settingsWritten
          { s with tickPeriod := period, answerTimeout := u.arg16 1 2, orphanHold := u.arg32 3 4 5 6 })
        (bytes16 (s.generation + 1))
    else .refuse .retry

def execSetExchange (p : Port) (_v : Byte) (s : State) : Host.Outcome State Fault Refusal :=
  .next (s.issue p .setExchange (State.setExchangeBody p))

/-- The newest entry of a queue is an OVERFLOW notice (R68, R71). -/
def Queue.newestIsOverflow (q : Queue) : Bool :=
  match q.entries.getLast? with
  | some n => n.kind == .overflow
  | none => false

/-- The depth argument of SET_QUEUE is legal (R68). -/
def legalDepth (d : Nat) : Bool := decide (16 ≤ d ∧ d ≤ 128 ∧ d % 16 = 0)

/-- The queue has room in a new depth (R68). -/
def Queue.fitsDepth (q : Queue) (d : Nat) : Bool :=
  decide (q.entries.length < d) || (q.entries.length == d && q.newestIsOverflow)

/-- SET_QUEUE taken: depth_q and threshold, and the IRQ level clamped to depth_q (R68). -/
def Queue.resized (q : Queue) (d t : Nat) : Queue :=
  { q with depth := d, threshold := t, irq := { q.irq with levelAt := min q.irq.levelAt d } }

/-- SET_QUEUE, ARG0 depth, ARG1 threshold (R68). -/
def State.setQueueBody (p : Port) (s : State) : Reply :=
  let u := s.port p
  let d := (u.arg8 0).toNat
  let t := (u.arg8 1).toNat
  if legalDepth d = false then .refuse .badArg
  else if t = 0 ∨ d - 1 < t then .refuse .badArg
  else if u.queue.fitsDepth d = false then .refuse .badArg
  else if s.settingsRoom then
    .take (s.updatePort p fun u => { u with queue := u.queue.resized d t }).settingsWritten
      (bytes16 (s.generation + 1))
  else .refuse .retry

def execSetQueue (p : Port) (_v : Byte) (s : State) : Host.Outcome State Fault Refusal :=
  .next (s.issue p .setQueue (State.setQueueBody p))

/-- SET_FILTER, ARG0 filter number, ARG1-3 key, ARG4-6 mask, ARG7 options (R48). -/
def State.setFilterBody (p : Port) (s : State) : Reply :=
  let u := s.port p
  match filterArg (u.arg8 0) with
  | none => .refuse .badArg
  | some i =>
    match optionsArg (u.arg8 7) with
    | none => .refuse .badArg
    | some o =>
      let f : Filter := { enabled := true, key := u.arg24 1 2 3, mask := u.arg24 4 5 6, options := o }
      .take (s.updatePort p fun u => { u with filters := u.filters.set i f }) []

def execSetFilter (p : Port) (_v : Byte) (s : State) : Host.Outcome State Fault Refusal :=
  .next (s.issue p .setFilter (State.setFilterBody p))

/-- CLEAR_FILTER, ARG0 filter number (R49). -/
def State.clearFilterBody (p : Port) (s : State) : Reply :=
  match filterArg ((s.port p).arg8 0) with
  | none => .refuse .badArg
  | some i => .take (s.updatePort p fun u => { u with filters := u.filters.set i .cleared }) []

def execClearFilter (p : Port) (_v : Byte) (s : State) : Host.Outcome State Fault Refusal :=
  .next (s.issue p .clearFilter (State.clearFilterBody p))

/-- SET_IRQ, ARG0 urgent enable, ARG1 level enable, ARG2 fetch enable, ARG3 IRQ level (R83). -/
def State.setIrqBody (p : Port) (s : State) : Reply :=
  let u := s.port p
  match boolArg (u.arg8 0), boolArg (u.arg8 1), boolArg (u.arg8 2) with
  | some urgent, some level, some fetch =>
    let n := (u.arg8 3).toNat
    if n = 0 ∨ u.queue.depth < n then .refuse .badArg
    else
      let irq : IrqSettings := { urgent := urgent, level := level, fetch := fetch, levelAt := n }
      .take (s.updatePort p fun u => { u with queue := { u.queue with irq := irq } }) []
  | _, _, _ => .refuse .badArg

def execSetIrq (p : Port) (_v : Byte) (s : State) : Host.Outcome State Fault Refusal :=
  .next (s.issue p .setIrq (State.setIrqBody p))

end Sys2Proof.Machine
end

