-- ==== Sys2Proof/Machine/Records.lean ====
section
/-! DEFINITION. Claiming, releasing, adopting and looking up records, and the orphaning of a slot (R3, R14 to R25). -/

namespace Sys2Proof.Machine

/-- A deadline given when period is not 0 (R16, R24, R40). -/
def deadlineOf (period : Time) (t : Time) : Option Time := if period = 0 then none else some t

/-- The record a CLAIM creates, with the cells it takes: one staging cell, then the spares (R16). -/
def claimedRecord (p : Port) (key : Key) (depth : Nat) (period : Time) (auto : Bool) (now : Time)
    (staging : CellNo) (spares : List CellNo) : Record :=
  { key := key, depth := depth, versions := [], next := .staging staging none, spares := spares, lastSequence := 0,
    period := period, autoAnswer := auto,
    life := .produced .claimed p (deadlineOf period (now + 2 * period)), watch := none }

/-- A CLAIM taken on a slot (R16): the first depth+1 cells of the pool are taken, which is not visible (log 7). -/
def State.claimSlot (s : State) (p : Port) (k : SlotNo) (key : Key) (depth : Nat) (period : Time) (auto : Bool) : Reply :=
  match s.free with
  | [] => .refuse .noCells
  | c :: rest =>
    let inc := (s.slot k).incarnation + 1
    let r := claimedRecord p key depth period auto s.etc c (rest.take depth)
    let t := { s with free := rest.drop depth }.setSlot k { incarnation := inc, record := some r }
    .take (t.admitJob (.appear { key := key, slot := k, incarnation := inc } p s.etc))
      [BitVec.ofNat 8 k.val, inc]

/-- CLAIM, ARG0-2 key, ARG3 depth, ARG4-7 period, ARG8 auto-answer: the checks of R15 in order. -/
def State.claimBody (p : Port) (s : State) : Reply :=
  let u := s.port p
  let key := u.arg24 0 1 2
  let depth := (u.arg8 3).toNat
  let period := u.arg32 4 5 6 7
  match boolArg (u.arg8 8) with
  | none => .refuse .badArg
  | some auto =>
    if depth = 0 ∨ 6 < depth ∨ Config.maxPeriod < period.toNat then .refuse .badArg
    else if (s.slotWithKey key).isSome then .refuse .keyInUse
    else
      match s.lowestFreeSlot with
      | none => .refuse .noSlot
      | some k =>
        if s.free.length < depth + 1 then .refuse .noCells
        else if s.hasRoom then s.claimSlot p k key depth period auto
        else .refuse .retry

def execClaim (p : Port) (_v : Byte) (s : State) : Host.Outcome State Fault Refusal :=
  .next (s.issue p .claim (State.claimBody p))

/-- The end of a record with its waiting requests: the entries removed, the slot freed, the WITHDRAW job admitted
(R19, R20, R115). -/
def State.withdrawSlot (s : State) (k : SlotNo) (r : Record) : State :=
  let ended := s.requestersOn k
  let t := (s.endEntriesOn k).freeSlot k
  t.admitJob (.withdraw (s.subject k r) r.lastSequence s.etc ended)

/-- RELEASE, ARG0 slot, ARG1 incarnation (R18, R20). -/
def State.releaseBody (p : Port) (s : State) : Reply :=
  let u := s.port p
  match s.checkProducer p (u.arg8 0) (u.arg8 1) with
  | .error e => .refuse e
  | .ok (k, r) => if s.hasRoom then .take ((s.closeUpdate p k).withdrawSlot k r) [] else .refuse .retry

def execRelease (p : Port) (_v : Byte) (s : State) : Host.Outcome State Fault Refusal :=
  .next (s.issue p .release (State.releaseBody p))

/-- The record after ADOPT by a port: STALE with versions, CLAIMED without, with the start-up grace (R24). -/
def Record.adopted (r : Record) (p : Port) (now : Time) : Record :=
  let stage := if r.versions = [] then Stage.claimed else Stage.stale
  { r with life := .produced stage p (deadlineOf r.period (now + 2 * r.period)) }

/-- ADOPT, ARG0-2 key (R23, R24). -/
def State.adoptBody (p : Port) (s : State) : Reply :=
  match s.orphanWithKey ((s.port p).arg24 0 1 2) with
  | none => .refuse .notOrphaned
  | some k =>
    match s.record k with
    | none => .refuse .notOrphaned
    | some r =>
      if s.hasRoom then
        .take ((s.setRecord k (some (r.adopted p s.etc))).admitJob (.adopt (s.subject k r) p s.etc))
          [BitVec.ofNat 8 k.val, (s.slot k).incarnation]
      else .refuse .retry

def execAdopt (p : Port) (_v : Byte) (s : State) : Host.Outcome State Fault Refusal :=
  .next (s.issue p .adopt (State.adoptBody p))

/-- The state code of a slot that is not FREE (R169). -/
def Life.code : Life → Byte
  | .produced .claimed _ _ => 1
  | .produced .live _ _ => 2
  | .produced .stale _ _ => 3
  | .orphaned _ => 4

/-- The producer byte of LOOKUP: 0FFH when the record is ORPHANED (R169). -/
def Life.producerByte : Life → Byte
  | .produced _ p _ => portCode p
  | .orphaned _ => 0xFF

/-- What LOOKUP reports about a key (R3, R169). -/
def State.lookupData (s : State) (key : Key) : List Byte :=
  match s.slotWithKey key with
  | none => [0xFF]
  | some k =>
    match s.record k with
    | none => [0xFF]
    | some r =>
      [BitVec.ofNat 8 k.val, (s.slot k).incarnation, r.life.code, r.life.producerByte, BitVec.ofNat 8 r.depth,
       BitVec.ofNat 8 r.versions.length] ++ bytes32 r.lastSequence

/-- LOOKUP, ARG0-2 key (R3). -/
def State.lookupBody (p : Port) (s : State) : Reply := .take s (s.lookupData ((s.port p).arg24 0 1 2))

def execLookup (p : Port) (_v : Byte) (s : State) : Host.Outcome State Fault Refusal :=
  .next (s.issue p .lookup (State.lookupBody p))

/-- The orphaning of one slot (R21): its entries end, it has no producer and no deadline, and the ORPHAN job is
admitted. -/
def State.orphanSlot (s : State) (k : SlotNo) (r : Record) : State :=
  let ended := s.requestersOn k
  let t := (s.endEntriesOn k).setRecord k (some { r with life := .orphaned s.etc })
  t.admitJob (.orphan (s.subject k r) r.lastSequence s.etc ended)

/-- ORPHANING: the lowest-numbered slot of a LEAVING port is orphaned when the DJQ has room; the port becomes OFFLINE
with its last (R21, R157). -/
def execOrphaning (p : Port) (s : State) : Host.Outcome State Fault Refusal :=
  .next (if (s.port p).state = .leaving ∧ s.hasRoom = true then
    match s.producedSlots p with
    | [] => s
    | k :: _ =>
      match s.record k with
      | none => s
      | some r => (s.orphanSlot k r).settleLeaving p
  else s)

end Sys2Proof.Machine
end

