-- ==== Sys2Proof/Machine/Requests.lean ====
section
/-! DEFINITION. REQUEST and CANCEL_REQUEST (R133 to R147). -/

namespace Sys2Proof.Machine

/-- The table holds an entry of this port for this slot and its incarnation (R135, R141). -/
def State.hasEntry (s : State) (p : Port) (k : SlotNo) : Bool :=
  s.waitingEntries.any fun e => e.requester == p && e.waitsOn k (s.slot k).incarnation

/-- A REQUEST answered at once from the newest version (R137). -/
def State.answerNow (s : State) (p : Port) (k : SlotNo) (r : Record) (newest : CellNo) : Reply :=
  let x := (s.cell newest).content
  if s.hasRoom then
    .take (s.admitJob (.answerNow (s.subject k r) p x.sequence x.commitTime (x.byteAt 0) (x.byteAt 1)))
      ([1] ++ bytes32 x.sequence ++ bytes32 x.commitTime)
  else .refuse .retry

/-- A REQUEST that makes an entry, and forwards it to the producer if it is the first on its slot (R135, R138). -/
def State.makeEntry (s : State) (p : Port) (k : SlotNo) (r : Record) (producer : Port) : Reply :=
  match s.lowestEmptyEntry with
  | none => .refuse .tableFull
  | some i =>
    if Config.requestCapacityPerPort ≤ s.requestCount p then .refuse .tableFull
    else
      let deadline := s.etc + s.answerTimeout.setWidth 32
      let e : Entry := { requester := p, slot := k, incarnation := (s.slot k).incarnation, issueTime := s.etc,
                         deadline := deadline }
      let t := s.setEntry i (some e)
      if s.requestersOn k = [] then
        if s.hasRoom then
          .take (t.admitJob (.requestFwd (s.subject k r) producer r.lastSequence s.etc))
            ([2] ++ bytes32 deadline ++ [1])
        else .refuse .retry
      else .take t ([2] ++ bytes32 deadline ++ [0])

/-- The course of a REQUEST on a slot with a producer: answered at once under auto-answer with a version and the
update closed, else an entry (R136). -/
def State.requestCourse (s : State) (p : Port) (k : SlotNo) (r : Record) (producer : Port) : Reply :=
  match r.versions.getLast? with
  | none => s.makeEntry p k r producer
  | some c => if r.autoAnswer && r.openUpdate.isNone then s.answerNow p k r c else s.makeEntry p k r producer

/-- REQUEST, ARG0 slot, ARG1 incarnation (R135, R136). -/
def State.requestBody (p : Port) (s : State) : Reply :=
  let u := s.port p
  match s.checkSlot (u.arg8 0) (u.arg8 1) with
  | .error e => .refuse e
  | .ok (k, r) =>
    match r.life with
    | .orphaned _ => .refuse .notLive
    | .produced _ producer _ =>
      if producer = p then .refuse .notProducer
      else if s.hasEntry p k then .refuse .pending
      else s.requestCourse p k r producer

def execRequest (p : Port) (_v : Byte) (s : State) : Host.Outcome State Fault Refusal :=
  .next (s.issue p .request (State.requestBody p))

/-- CANCEL_REQUEST, ARG0 slot, ARG1 incarnation (R141). -/
def State.cancelRequestBody (p : Port) (s : State) : Reply :=
  let u := s.port p
  match s.checkSlot (u.arg8 0) (u.arg8 1) with
  | .error e => .refuse e
  | .ok (k, _) =>
    if s.hasEntry p k then
      .take (s.removeEntries fun e => e.requester == p && e.waitsOn k (s.slot k).incarnation) []
    else .refuse .notPending

def execCancelRequest (p : Port) (_v : Byte) (s : State) : Host.Outcome State Fault Refusal :=
  .next (s.issue p .cancelRequest (State.cancelRequestBody p))

end Sys2Proof.Machine
end

