-- ==== Sys2Proof/Machine/Resets.lean ====
section
/-! DEFINITION. Power-on, the RESET pin, the PRSTx pins, and the moment the ports are ready (R149, R165, R175). -/

namespace Sys2Proof.Machine

/-- A transaction that the part ends: until chip-select is deasserted, what follows is ignored (R149, R165, log 9). -/
def Transaction.ended : Transaction → Transaction
  | .idle => .idle
  | .ignored => .ignored
  | .address => .ignored
  | .write _ => .ignored
  | .read _ _ => .ignored
  | .discarding => .ignored

/-- A port after a reset of the whole part: its pins keep their levels (R149, R165, log 8). -/
def PortUnit.afterReset (u : PortUnit) : PortUnit :=
  { PortUnit.reset with prst := u.prst, transaction := u.transaction.ended }

/-- The reset of the whole part (R165). The pins keep their levels and the waiting commands stay (log 8, log 12). -/
def State.resetPart (s : State) : State :=
  { State.reset with
    pending := s.pending, resetPin := s.resetPin,
    portA := s.portA.afterReset, portB := s.portB.afterReset,
    portC := s.portC.afterReset, portD := s.portD.afterReset }

/-- POWER_ON: the reset of the whole part (R165). -/
def execPowerOn (s : State) : Host.Outcome State Fault Refusal := .next s.resetPart

/-- RESET_ASSERT: the reset of the whole part, held until the release (R165). -/
def execResetAssert (s : State) : Host.Outcome State Fault Refusal :=
  .next (if s.resetPin then s else { s.resetPart with resetPin := true })

/-- RESET_RELEASE: operation begins, in the reset state (R165). -/
def execResetRelease (s : State) : Host.Outcome State Fault Refusal := .next { s with resetPin := false }

/-- PORTS_READY: the ports are ready for transactions, while RESET is released (R175). -/
def execPortsReady (s : State) : Host.Outcome State Fault Refusal :=
  .next (if s.resetPin then s else { s with ready := true })

/-- What the assertion of PRSTx does at the port interface unit: the transaction ends, RESULT becomes NONE and every
RDATA byte 00H (R149, R170). -/
def PortUnit.prstAsserted (u : PortUnit) : PortUnit :=
  { u with prst := true, transaction := u.transaction.ended, result := .none, rdata := rdataOf [] }

/-- PRSTX_ASSERT: the transaction ends, RESULT is NONE, and from ACTIVE or DOZE the LEAVING entry is made (R149). The
assertion is the event: an asserted pin has none (log 2). -/
def execPrstxAssert (p : Port) (s : State) : Host.Outcome State Fault Refusal :=
  .next (if (s.port p).prst then s
    else
      let t := s.updatePort p PortUnit.prstAsserted
      match (s.port p).state with
      | .active => t.leavingEntry p
      | .doze => t.leavingEntry p
      | .leaving => t
      | .offline => t)

/-- PRSTX_RELEASE: the port's SPI is decoded again; no port state changes (R149). -/
def execPrstxRelease (p : Port) (s : State) : Host.Outcome State Fault Refusal :=
  .next (s.updatePort p fun u => { u with prst := false })

end Sys2Proof.Machine
end

