-- ==== Sys2Proof/Machine/Flags.lean ====
section
/-! DEFINITION. What is computed from the state and shown: the INTx and WAKx outputs, the data-out pin, the STATUS
bytes, and the codes of results, kinds and states. -/

namespace Sys2Proof.Machine

/-! ### Interrupt and wake outputs (R84 to R87) -/

/-- The number of entries of a queue (R67). -/
def Queue.fill (q : Queue) : Nat := q.entries.length

/-- The urgent condition (R84). -/
def Queue.urgentCondition (q : Queue) : Bool := q.irq.urgent && q.entries.any fun n => n.cls == .urgent

/-- The level condition (R84). -/
def Queue.levelCondition (q : Queue) : Bool := q.irq.level && decide (q.irq.levelAt ≤ q.fill)

/-- The fetch condition (R84). -/
def PortUnit.fetchCondition (u : PortUnit) : Bool := u.queue.irq.fetch && u.fetch == .ready

/-- INTx is active: the port is ACTIVE and a condition holds (R84, R85), and RESET is not asserted (R165). -/
def State.intActive (s : State) (p : Port) : Bool :=
  let u := s.port p
  !s.resetPin && u.state == .active &&
    (u.queue.urgentCondition || u.queue.levelCondition || u.fetchCondition)

/-- WAKx is asserted: the port is in DOZE with wake pending (R86), and RESET is not asserted (R165). -/
def State.wakAsserted (s : State) (p : Port) : Bool :=
  !s.resetPin && (s.port p).state == .doze && (s.port p).queue.wakePending

/-- The level of the INTx pin: active low, high while RESET is asserted (R175). -/
def State.intPinHigh (s : State) (p : Port) : Bool := !s.intActive p

/-- The level of the WAKx pin: active high, low while RESET is asserted (R175). -/
def State.wakPinHigh (s : State) (p : Port) : Bool := s.wakAsserted p

/-! ### The data-out pin (R166, R175) -/

/-- What the data-out pin does: high-impedance, shifting out a byte, or driven with a byte the manual does not give,
in a transaction the part ignores (log 10). -/
inductive DataOut where
  | highImpedance
  | shifts (b : Byte)
  | unstated
  deriving DecidableEq, Repr

/-- The data-out pin of a port: driven while chip-select is asserted and neither PRSTx nor RESET is (R175); 00H in the
address byte and in a write transaction, else the read byte that is fixed (R166). -/
def State.dataOut (s : State) (p : Port) : DataOut :=
  if s.decodes p then
    match (s.port p).transaction with
    | .idle => .highImpedance
    | .ignored => .unstated
    | .address => .shifts 0
    | .write _ => .shifts 0
    | .discarding => .shifts 0
    | .read _ b => .shifts b.value
  else .highImpedance

/-! ### STATUS (R171) -/

def PortState.bits : PortState → BitVec 2
  | .offline => 0
  | .active => 1
  | .doze => 2
  | .leaving => 3

def Mode.bit : Mode → Bool
  | .setup => false
  | .run => true

/-- The fetch state bits; both copy phases read as IN_FLIGHT (R90, R171). -/
def FetchState.bits : FetchState → BitVec 2
  | .idle => 0
  | .inFlight _ _ => 1
  | .ready => 2

/-- STATUS0 (R171). -/
def State.status0 (s : State) (p : Port) : Byte :=
  (s.port p).state.bits ++ BitVec.ofBool s.mode.bit ++ BitVec.ofBool (s.port p).vote ++ (s.port p).fetch.bits ++
    BitVec.ofBool (s.intActive p) ++ BitVec.ofBool (s.port p).queue.wakePending

/-- STATUS1: the sticky flags (R171). -/
def PortUnit.status1 (u : PortUnit) : Byte :=
  (0 : BitVec 5) ++ BitVec.ofBool u.writeDenied ++ BitVec.ofBool u.underrun ++ BitVec.ofBool u.discarded

/-- The completion of a STATUS1 byte clears each flag that the byte presented as set (R171). -/
def PortUnit.clearSticky (u : PortUnit) (presented : Byte) : PortUnit :=
  { u with writeDenied := u.writeDenied && !presented.getLsbD 2,
           underrun := u.underrun && !presented.getLsbD 1,
           discarded := u.discarded && !presented.getLsbD 0 }

/-- The four STATUS bytes (R171). -/
def State.statusByte (s : State) (p : Port) (i : Fin 4) : Byte :=
  match i with
  | 0 => s.status0 p
  | 1 => (s.port p).status1
  | 2 => BitVec.ofNat 8 (s.port p).queue.fill
  | 3 => BitVec.ofNat 8 (s.port p).valid

/-! ### Codes (R169, R170, R173) -/

/-- The code of a result (R170). -/
def Result.code : Result → Byte
  | .none => 0x00
  | .ok => 0x01
  | .retry => 0x02
  | .busy => 0x03
  | .notJoined => 0x04
  | .notOffline => 0x05
  | .wrongMode => 0x06
  | .badArg => 0x07
  | .noSlot => 0x08
  | .noCells => 0x09
  | .keyInUse => 0x0A
  | .notOrphaned => 0x0B
  | .notProducer => 0x0C
  | .notOpen => 0x0D
  | .alreadyOpen => 0x0E
  | .tooManyOpen => 0x0F
  | .cellPending => 0x10
  | .overrun => 0x11
  | .noVersion => 0x12
  | .notLive => 0x13
  | .gone => 0x14
  | .fetchBusy => 0x15
  | .pending => 0x16
  | .notPending => 0x17
  | .tableFull => 0x18
  | .staleSettings => 0x19

/-- The code of a notice kind (R173). -/
def NoticeKind.code : NoticeKind → Byte
  | .published => 0x01
  | .stale => 0x02
  | .limit => 0x03
  | .request => 0x04
  | .answer => 0x05
  | .requestEnded => 0x06
  | .appeared => 0x07
  | .orphaned => 0x08
  | .adopted => 0x09
  | .withdrawn => 0x0A
  | .overflow => 0x0B
  | .mode => 0x0C
  | .voteCleared => 0x0D

/-- The flags byte of a notice (R173). -/
def Notice.flags (n : Notice) : Byte :=
  BitVec.ofBool n.more ++ BitVec.ofBool n.recovered ++ BitVec.ofBool n.inlined ++ BitVec.ofBool n.wake ++
    BitVec.ofBool n.coalesced ++ (0 : BitVec 1) ++ n.detail

/-- The eight bytes of a notice (R173). -/
def Notice.image (n : Notice) : Vector Byte 8 :=
  #v[n.kind.code, n.slot, n.incarnation, n.flags, n.value.extractLsb' 8 8, n.value.extractLsb' 0 8,
     n.data.extractLsb' 8 8, n.data.extractLsb' 0 8]

/-- The EMPTY notice (R78). -/
def emptyImage : Vector Byte 8 := Vector.replicate 8 0

/-- The detail of a LIMIT notice (R173). -/
def Side.detail : Side → BitVec 2
  | .low => 1
  | .high => 2
  | .inside => 3

/-- The state of a watch in RDATA1 (R169). -/
def Side.code : Side → Byte
  | .low => 1
  | .high => 2
  | .inside => 3

/-- Bytes 10 and 11 of the read header (R174). -/
def tagByte : Option GroupTag → Byte
  | none => 0
  | some t => 0x80 ||| portCode t.port

def tagCountByte : Option GroupTag → Byte
  | none => 0
  | some t => t.count

/-- The twelve bytes of the read header (R174). -/
def Header.image (h : Header) : Vector Byte 12 :=
  #v[h.slot,
     h.sequence.extractLsb' 24 8, h.sequence.extractLsb' 16 8, h.sequence.extractLsb' 8 8, h.sequence.extractLsb' 0 8,
     h.commitTime.extractLsb' 24 8, h.commitTime.extractLsb' 16 8, h.commitTime.extractLsb' 8 8,
     h.commitTime.extractLsb' 0 8,
     BitVec.ofNat 8 h.length, tagByte h.tag, tagCountByte h.tag]

end Sys2Proof.Machine
end

