-- ==== Sys2Proof/Machine/Notices.lean ====
section
/-! DEFINITION. From a job to the queues: which notices a job gives to a port (R50 to R65), and what the Notice Queue
Manager does with each one handed (R69 to R76, R81, R86). -/

namespace Sys2Proof.Machine

/-! ### Matching (R50) -/

/-- A key matches a filter (R50). -/
def Filter.isMatch (f : Filter) (k : Key) : Bool := f.enabled && (k &&& f.mask) == (f.key &&& f.mask)

def Options.union (x y : Options) : Options :=
  { pub := x.pub || y.pub, coalesce := x.coalesce || y.coalesce, inlined := x.inlined || y.inlined,
    status := x.status || y.status, limits := x.limits || y.limits, wake := x.wake || y.wake }

/-- The options of a port for a key: the union over its enabled filters that match (R50). -/
def optionsFor (fs : Vector Filter 8) (k : Key) : Options :=
  ((fs.toList.filter fun f => f.isMatch k).map fun f => f.options).foldl Options.union .empty

/-! ### Notice contents (R58) -/

/-- The class of a notice kind (R57). -/
def NoticeKind.cls : NoticeKind → NoticeClass
  | .published => .normal
  | .appeared => .normal
  | .adopted => .normal
  | .withdrawn => .normal
  | .stale => .urgent
  | .limit => .urgent
  | .request => .urgent
  | .answer => .urgent
  | .requestEnded => .urgent
  | .orphaned => .urgent
  | .mode => .urgent
  | .voteCleared => .urgent
  | .overflow => .urgent

/-- A notice with no flag set and detail 0, not coalescible (R57, R58). -/
def Notice.plain (kind : NoticeKind) (slot incarnation : Byte) (value data : Half) : Notice :=
  { kind := kind, slot := slot, incarnation := incarnation, more := false, recovered := false, inlined := false,
    wake := false, coalesced := false, detail := 0, value := value, data := data, cls := kind.cls,
    coalescible := false }

/-- A plain notice about a record (R58). -/
def Subject.notice (x : Subject) (kind : NoticeKind) (value data : Half) : Notice :=
  .plain kind (BitVec.ofNat 8 x.slot.val) x.incarnation value data

/-- The value of an APPEARED or ADOPTED notice: a port code (R58, R173). -/
def portHalf (p : Port) : Half := (portCode p).setWidth 16

/-- Time-or-data: the low 16 bits of the event time, or payload bytes 0 and 1 under INLINE (R58). -/
def timeOrData (inlined : Bool) (t : Time) (byte0 byte1 : Byte) : Half := if inlined then byte0 ++ byte1 else low16 t

/-- The PUBLISHED notice of one member to a port with these options (R58 to R60). -/
def Published.published (m : Published) (o : Options) : Notice :=
  { m.subject.notice .published (low16 m.sequence) (timeOrData o.inlined m.commitTime m.byte0 m.byte1) with
    recovered := m.recovered, inlined := o.inlined }

/-- The LIMIT notice of one member, if it captured an outcome and the port has LIMITS (R59). -/
def Published.limitNotices (m : Published) (o : Options) : List Handed :=
  match m.limit with
  | none => []
  | some d =>
    if o.limits then
      [.one { m.subject.notice .limit (low16 m.sequence) (low16 m.commitTime) with detail := d.detail, wake := o.wake }]
    else []

/-- An ANSWER notice about a version (R58, R59, R64). -/
def answerNotice (x : Subject) (o : Options) (sequence : Seq) (t : Time) (byte0 byte1 : Byte) : Notice :=
  { x.notice .answer (low16 sequence) (timeOrData o.inlined t byte0 byte1) with inlined := o.inlined }

/-- The ANSWER notice of one member to an answered requester (R59). -/
def Published.answerNotices (m : Published) (o : Options) (p : Port) : List Handed :=
  if m.answered.contains p then [.one (answerNotice m.subject o m.sequence m.commitTime m.byte0 m.byte1)] else []

/-- The block of a group job: MORE on every notice but the last (R60). -/
def withMore : List Notice → List Notice
  | [] => []
  | [n] => [{ n with more := false }]
  | n :: m :: rest => { n with more := true } :: withMore (m :: rest)

/-- The notices of a one-slot PUBLISH job for a port (R59). -/
def publishOne (fs : Vector Filter 8) (p : Port) (m : Published) : List Handed :=
  let o := optionsFor fs m.subject.key
  (if o.pub && m.producer != p then [.one { m.published o with coalescible := o.coalesce }] else []) ++
    m.limitNotices o ++ m.answerNotices o p

/-- The PUBLISHED notices of a group job for a port, in open order (R60). -/
def groupBlock (fs : Vector Filter 8) (p : Port) (ms : List Published) : List Notice :=
  withMore ((ms.filter fun m => (optionsFor fs m.subject.key).pub && m.producer != p).map fun m =>
    m.published (optionsFor fs m.subject.key))

/-- The notices of a group PUBLISH job of two or more members for a port (R60). -/
def publishGroup (fs : Vector Filter 8) (p : Port) (ms : List Published) : List Handed :=
  (match groupBlock fs p ms with
   | [] => []
   | n :: ns => [.block (n :: ns)]) ++
    ms.flatMap (fun m => m.limitNotices (optionsFor fs m.subject.key)) ++
    ms.flatMap (fun m => m.answerNotices (optionsFor fs m.subject.key) p)

/-- A notice to each port that subscribes with STATUS (R61 to R63). -/
def toStatus (fs : Vector Filter 8) (x : Subject) (n : Notice) : List Handed :=
  if (optionsFor fs x.key).status then [.one n] else []

/-- The REQUEST_ENDED notice of a listed entry (R63, R64, R173). -/
def endedNotice (x : Subject) (detail : BitVec 2) (lastSequence : Seq) (t : Time) : Notice :=
  { x.notice .requestEnded (low16 lastSequence) (low16 t) with detail := detail }

/-- The REQUEST_ENDED notices to a port: one for each listed entry of its (R63). -/
def endedNotices (x : Subject) (detail : BitVec 2) (lastSequence : Seq) (t : Time) (p : Port) (ended : List Port) :
    List Handed :=
  (ended.filter fun q => q == p).map fun _ => .one (endedNotice x detail lastSequence t)

/-- A MODE or VOTE_CLEARED notice: about no slot, event time 0 (R58, R65). -/
def modeNotice (kind : NoticeKind) (wake : Bool) (generation : Half) : Notice :=
  { Notice.plain kind 0xFF 0 generation 0 with wake := wake }

/-- The notices that a job gives to port `p`, whose filters are `fs`, in the order they are handed (R59 to R65). -/
def Job.noticesFor (j : Job) (fs : Vector Filter 8) (p : Port) : List Handed :=
  match j with
  | .publish [m] => publishOne fs p m
  | .publish ms => publishGroup fs p ms
  | .stale x producer lastSequence t =>
    let n := x.notice .stale (low16 lastSequence) (low16 t)
    if producer = p then [.one { n with wake := true }] else toStatus fs x n
  | .answerNow x requester sequence t byte0 byte1 =>
    if requester = p then [.one (answerNotice x (optionsFor fs x.key) sequence t byte0 byte1)] else []
  | .requestFwd x producer lastSequence t =>
    if producer = p then [.one { x.notice .request (low16 lastSequence) (low16 t) with wake := true }] else []
  | .requestEnd x requester lastSequence t =>
    if requester = p then [.one (endedNotice x 1 lastSequence t)] else []
  | .appear x producer t => toStatus fs x (x.notice .appeared (portHalf producer) (low16 t))
  | .adopt x producer t => toStatus fs x (x.notice .adopted (portHalf producer) (low16 t))
  | .orphan x lastSequence since ended =>
    toStatus fs x (x.notice .orphaned (low16 lastSequence) (low16 since)) ++
      endedNotices x 2 lastSequence since p ended
  | .withdraw x lastSequence t ended =>
    toStatus fs x (x.notice .withdrawn (low16 lastSequence) (low16 t)) ++
      endedNotices x 3 lastSequence t p ended
  | .mode generation ports => if ports.contains p then [.one (modeNotice .mode true generation)] else []
  | .votesCleared generation ports =>
    if ports.contains p then [.one (modeNotice .voteCleared false generation)] else []

/-! ### Admission (R69 to R73, R81, R86) -/

/-- The limit below which the fill must stand for a notice of a class (R70). -/
def Queue.classLimit (q : Queue) : NoticeClass → Nat
  | .normal => q.threshold
  | .urgent => q.depth - 1

/-- Append admitted notices; in DOZE a WAKE notice among them sets wake pending (R70, R73, R86). -/
def Queue.append (q : Queue) (dozing : Bool) (ns : List Notice) : Queue :=
  { q with entries := q.entries ++ ns, wakePending := q.wakePending || (dozing && ns.any fun n => n.wake) }

/-- A count raised, saturating at FFFFH (R71). -/
def raiseCount (v : Half) (k : Nat) : Half := if v.toNat + k < 65536 then BitVec.ofNat 16 (v.toNat + k) else 0xFFFF

/-- A new OVERFLOW notice (R72). -/
def overflowNotice (count : Half) (wake : Bool) (now : Half) : Notice :=
  { Notice.plain .overflow 0xFF 0 count now with wake := wake }

/-- A drop of `k` notices counted at the tail of the entries (R71, R73). On an empty queue a dropped block counts `k`, by
R73, and not the 1 of R80 (log 17). -/
def countDrop (k : Nat) (wake : Bool) (now : Half) : List Notice → List Notice
  | [] => [overflowNotice (raiseCount 0 k) wake now]
  | [n] =>
    if n.kind = .overflow then [{ n with value := raiseCount n.value k, wake := n.wake || wake }]
    else [n, overflowNotice (raiseCount 0 k) wake now]
  | n :: m :: rest => n :: countDrop k wake now (m :: rest)

/-- Drop `k` notices: counted in an OVERFLOW notice, and a dropped WAKE notice sets wake pending in DOZE (R71, R86). -/
def Queue.drop (q : Queue) (dozing : Bool) (now : Half) (k : Nat) (wake : Bool) : Queue :=
  { q with entries := countDrop k wake now q.entries, wakePending := q.wakePending || (dozing && wake) }

/-- A notice decided by its class (R70). Where R80 has a drop after the pop of an only entry, R70 finds the queue empty and
admits the notice: the model follows R70 (log 17). -/
def Queue.byClass (q : Queue) (dozing : Bool) (now : Half) (n : Notice) : Queue :=
  if q.fill < q.classLimit n.cls then q.append dozing [n] else q.drop dozing now 1 n.wake

/-- A notice is about the same slot and incarnation (R74). A notice about no slot shows slot 0FFH, which no slot has
(R58, R72). -/
def Notice.sameRecord (x n : Notice) : Bool := x.slot == n.slot && x.incarnation == n.incarnation

/-- The place of the newest entry about the same slot and incarnation (R74). -/
def newestAbout (n : Notice) : List Notice → Option Nat
  | [] => none
  | x :: rest =>
    match newestAbout n rest with
    | some i => some (i + 1)
    | none => if x.sameRecord n then some 0 else none

/-- The coalescing target of a coalescible notice; `held` says that the head entry is under read (R74). -/
def coalescingTarget (held : Bool) (n : Notice) (es : List Notice) : Option Nat :=
  match newestAbout n es with
  | none => none
  | some i =>
    match es[i]? with
    | none => none
    | some x => if x.kind = .published ∧ x.coalescible = true ∧ ¬(held = true ∧ i = 0) then some i else none

/-- The target after a merge (R75). -/
def Notice.mergedWith (x n : Notice) : Notice :=
  { x with value := n.value, data := n.data, inlined := n.inlined, recovered := x.recovered || n.recovered,
           coalesced := true }

/-- The merge of a notice into the entry at a place (R75). -/
def mergeAt (n : Notice) : Nat → List Notice → List Notice
  | _, [] => []
  | 0, x :: rest => x.mergedWith n :: rest
  | i + 1, x :: rest => x :: mergeAt n i rest

/-- One decision of the NQM (R69): discarded while DISCARDING, a block whole, a coalescible notice merged into its
target, and every other by its class. -/
def Queue.decideOne (dozing held : Bool) (now : Half) (q : Queue) (h : Handed) : Queue :=
  if q.accepting then
    match h with
    | .block ns =>
      if q.fill + ns.length ≤ q.threshold then q.append dozing ns else q.drop dozing now ns.length false
    | .one n =>
      match (if n.coalescible then coalescingTarget held n q.entries else none) with
      | some i => { q with entries := mergeAt n i q.entries }
      | none => q.byClass dozing now n
  else q

/-- The head entry of a port's queue is under read (R79). -/
def Transaction.holdsHead : Transaction → Bool
  | .read _ b =>
    match b.effect with
    | .noticeByte g => g.held
    | .none => false
    | .clearSticky => false
    | .consume => false
    | .underrun => false
    | .endReady => false
  | .idle => false
  | .ignored => false
  | .address => false
  | .write _ => false
  | .discarding => false

/-- The notices of a job for one port, formed and decided (R56, R69). -/
def PortUnit.receive (u : PortUnit) (p : Port) (now : Half) (j : Job) : PortUnit :=
  let decision := Queue.decideOne (u.state == .doze) u.transaction.holdsHead now
  { u with queue := (j.noticesFor u.filters p).foldl decision u.queue }

/-- The distribution event of a job at every port (R56). -/
def State.distribute (s : State) (j : Job) : State := s.updatePorts fun p u => u.receive p (low16 s.etc) j

end Sys2Proof.Machine
end

