-- ==== Sys2Proof/Machine/Supervision.lean ====
section
/-! DEFINITION. The events of the Supervision Scanner and of the Distribution Unit: TICK, the scan visits, and the
distribution event (R56, R104 to R120). -/

namespace Sys2Proof.Machine

/-- TICK (R104, R105). -/
def execTick (s : State) : Host.Outcome State Fault Refusal := .next s.tickNow

/-- The position after a visit, in the cycle of 80 (R109). -/
def State.scanOn (s : State) : State := { s with scan := s.scan + 1 }

/-- The slot a scan position names, below 64 (R109). -/
def scanSlot (i : Fin 80) : Option SlotNo := if h : i.val < 64 then some ⟨i.val, h⟩ else none

/-- The request position a scan position names, from 64 on (R109). -/
def scanEntry (i : Fin 80) : Option EntryNo :=
  if 64 ≤ i.val then some (Fin.ofNat 16 (i.val - 64)) else none

/-- A lapse: the slot becomes STALE, its deadline kept, and the STALE job is admitted (R112). -/
def State.lapse (s : State) (k : SlotNo) (r : Record) (p : Port) (d : Option Time) : State :=
  (s.setRecord k (some { r with life := .produced .stale p d })).admitJob
    (.stale (s.subject k r) p r.lastSequence s.etc)

/-- The check of a slot's deadline at a visit, for CLAIMED and LIVE (R111). -/
def State.checkDeadline (s : State) (k : SlotNo) (r : Record) (p : Port) (d : Option Time) : State :=
  match d with
  | none => s
  | some t => if r.period ≠ 0 ∧ reached s.etc t = true ∧ s.hasRoom = true then s.lapse k r p (some t) else s

/-- The check of a slot at a visit, by its state; no finding is made without room in the DJQ (R111, R115, R116). -/
def State.visitSlot (s : State) (k : SlotNo) : State :=
  match s.record k with
  | none => s
  | some r =>
    match r.life with
    | .produced .claimed p d => s.checkDeadline k r p d
    | .produced .live p d => s.checkDeadline k r p d
    | .produced .stale _ _ => s
    | .orphaned since =>
      if s.orphanHold ≠ 0 ∧ reached s.etc (since + s.orphanHold) = true ∧ s.hasRoom = true then
        (s.freeSlot k).admitJob (.withdraw (s.subject k r) r.lastSequence s.etc [])
      else s

/-- SCAN_VISIT_SLOT: in RUN, the visit to the slot at the scan position (R109, R111). -/
def execScanVisitSlot (s : State) : Host.Outcome State Fault Refusal :=
  .next (match s.mode, scanSlot s.scan with
    | .run, some k => (s.visitSlot k).scanOn
    | .run, none => s
    | .setup, _ => s)

/-- A timeout: the entry is removed and the REQUEST_END job admitted, with key and last sequence of its slot (R140). -/
def State.timeOut (s : State) (i : EntryNo) (e : Entry) (r : Record) : State :=
  (s.setEntry i none).admitJob
    (.requestEnd { key := r.key, slot := e.slot, incarnation := e.incarnation } e.requester r.lastSequence s.etc)

/-- The check of an entry's answer deadline at a visit (R117, R140). An entry's slot is never FREE (R133); in a state
that no run reaches, an entry of a FREE slot is left (log 14). -/
def State.visitEntry (s : State) (i : EntryNo) : State :=
  match s.entry i with
  | none => s
  | some e =>
    match s.record e.slot with
    | none => s
    | some r => if reached s.etc e.deadline = true ∧ s.hasRoom = true then s.timeOut i e r else s

/-- SCAN_VISIT_ENTRY: in RUN, the visit to the request position at the scan position (R109, R117). -/
def execScanVisitEntry (s : State) : Host.Outcome State Fault Refusal :=
  .next (match s.mode, scanEntry s.scan with
    | .run, some i => (s.visitEntry i).scanOn
    | .run, none => s
    | .setup, _ => s)

/-- DISTRIBUTION_EVENT: the end of the DU's transfer. The notices of the head job are formed, handed and decided, the
job leaves the queue, the path is free, the barrier is checked in SETUP, and the path is granted again (R56, R101,
R162). -/
def execDistributionEvent (s : State) : Host.Outcome State Fault Refusal :=
  .next (match s.path, s.jobs with
    | some .du, j :: rest => (State.checkBarrier { s.distribute j with jobs := rest, path := none }).grant
    | some .du, [] => s
    | some (.port _), _ => s
    | none, _ => s)

end Sys2Proof.Machine
end

