-- ==== Sys2Proof/Machine/Watching.lean ====
section
/-! DEFINITION. The limit watch: its evaluation at a commit, and the commands that set and clear it (R121 to R132). -/

namespace Sys2Proof.Machine

/-- The sample of a version: missing when the field is not wholly inside it, else its bytes as a number of the watch's
signedness, most significant byte first (R125, R126). -/
def Watch.sample (w : Watch) (x : Content) : Option Int :=
  if x.length < w.offset + w.width.bytes then none
  else
    match w.width with
    | .bits8 =>
      let v := x.byteAt w.offset
      some (if w.signed then v.toInt else v.toNat)
    | .bits16 =>
      let v : BitVec 16 := x.byteAt w.offset ++ x.byteAt (w.offset + 1)
      some (if w.signed then v.toInt else v.toNat)

/-- The side of a value; both limits are inclusive (R127). -/
def Watch.side (w : Watch) (v : Int) : Side :=
  if v ≤ w.low then .low else if w.high ≤ v then .high else .inside

/-- The run and the candidate after a present sample (R128, step 1). -/
def Watch.count (w : Watch) (x : Side) : Watch :=
  if x = w.candidate then { w with run := min (w.run + 1) Config.maxRun } else { w with candidate := x, run := 1 }

/-- The evaluation of a watch on a committed version: the watch after it, and the limit outcome (R125, R128). -/
def Watch.evaluate (w : Watch) (x : Content) : Watch × Option Side :=
  match w.sample x with
  | none => ({ w with run := 0 }, none)
  | some v =>
    let side := w.side v
    let w' := w.count side
    if w'.confirm ≤ w'.run ∧ side ≠ w'.state then ({ w' with state := side }, some side) else (w', none)

/-- The evaluation of a slot's watch, if it has one (R125). -/
def evaluateWatch (w : Option Watch) (x : Content) : Option Watch × Option Side :=
  match w with
  | none => (none, none)
  | some w => let e := w.evaluate x; (some e.1, e.2)

/-- What the result area reports of the watch that stood before (R123, R169). -/
def watchData (w : Option Watch) : List Byte :=
  match w with
  | none => [0, 0]
  | some w => [1, w.state.code]

/-- The watch of valid SET_WATCH arguments; none where a check of R122 on them fails. ARG2 offset, ARG3 width, ARG4
signedness, ARG5-6 low limit, ARG7-8 high limit, ARG9 confirm count. It starts INSIDE (R123). -/
def PortUnit.watchArgs (u : PortUnit) : Option Watch :=
  match widthArg (u.arg8 3), boolArg (u.arg8 4) with
  | some width, some signed =>
    let offset := (u.arg8 2).toNat
    let confirm := (u.arg8 9).toNat
    let low := limitArg signed (u.arg16 5 6)
    let high := limitArg signed (u.arg16 7 8)
    if offset + width.bytes ≤ Config.payloadCapacity ∧ 1 ≤ confirm ∧ confirm ≤ Config.maxRun ∧
        limitInRange width signed low = true ∧ limitInRange width signed high = true ∧ low < high then
      some { offset := offset, width := width, signed := signed, low := low, high := high, confirm := confirm,
             state := .inside, candidate := .inside, run := 0 }
    else none
  | _, _ => none

/-- A slot's watch replaced (R123, R124). -/
def State.putWatch (s : State) (k : SlotNo) (r : Record) (w : Option Watch) : Reply :=
  .take (s.setRecord k (some { r with watch := w })) (watchData r.watch)

/-- SET_WATCH (R122, R123). Every check of arguments gives BAD_ARG and comes before the slot and producer checks. -/
def State.setWatchBody (p : Port) (s : State) : Reply :=
  let u := s.port p
  match slotArg (u.arg8 0), u.watchArgs with
  | some _, some w =>
    match s.checkProducer p (u.arg8 0) (u.arg8 1) with
    | .error e => .refuse e
    | .ok (k, r) => s.putWatch k r (some w)
  | _, _ => .refuse .badArg

def execSetWatch (p : Port) (_v : Byte) (s : State) : Host.Outcome State Fault Refusal :=
  .next (s.issue p .setWatch (State.setWatchBody p))

/-- CLEAR_WATCH, ARG0 slot, ARG1 incarnation (R124). -/
def State.clearWatchBody (p : Port) (s : State) : Reply :=
  let u := s.port p
  match s.checkProducer p (u.arg8 0) (u.arg8 1) with
  | .error e => .refuse e
  | .ok (k, r) => s.putWatch k r none

def execClearWatch (p : Port) (_v : Byte) (s : State) : Host.Outcome State Fault Refusal :=
  .next (s.issue p .clearWatch (State.clearWatchBody p))

end Sys2Proof.Machine
end

