-- ==== Sys2Proof/Machine/Updates.lean ====
section
/-! DEFINITION. Open updates and commits (R27 to R46). -/

namespace Sys2Proof.Machine

/-- An open update of a record replaced, on the staging cell. -/
def Record.withUpdate (r : Record) (c : CellNo) (u : Update) : Record := { r with next := .staging c (some u) }

/-- OPEN_UPDATE, ARG0 slot, ARG1 incarnation (R29, R30). -/
def State.openUpdateBody (p : Port) (s : State) : Reply :=
  let u := s.port p
  match s.checkProducer p (u.arg8 0) (u.arg8 1) with
  | .error e => .refuse e
  | .ok (k, r) =>
    if r.openUpdate.isSome then .refuse .alreadyOpen
    else if Config.openCapacity ≤ u.openList.length then .refuse .tooManyOpen
    else
      match r.next with
      | .owed _ => .refuse .cellPending
      | .staging c _ =>
        .take ((s.setRecord k (some (r.withUpdate c { length := 0, overrun := false }))).updatePort p fun u =>
          { u with openList := u.openList ++ [k], stagingPointer := some k }) []

def execOpenUpdate (p : Port) (_v : Byte) (s : State) : Host.Outcome State Fault Refusal :=
  .next (s.issue p .openUpdate (State.openUpdateBody p))

/-- SELECT_STAGE, ARG0 slot, ARG1 incarnation (R31). -/
def State.selectStageBody (p : Port) (s : State) : Reply :=
  let u := s.port p
  match s.checkProducer p (u.arg8 0) (u.arg8 1) with
  | .error e => .refuse e
  | .ok (k, r) =>
    match r.openUpdate with
    | none => .refuse .notOpen
    | some x =>
      .take (s.updatePort p fun u => { u with stagingPointer := some k })
        [BitVec.ofNat 8 x.length, flagByte x.overrun]

def execSelectStage (p : Port) (_v : Byte) (s : State) : Host.Outcome State Fault Refusal :=
  .next (s.issue p .selectStage (State.selectStageBody p))

/-- ABANDON, ARG0 slot, ARG1 incarnation (R35). -/
def State.abandonBody (p : Port) (s : State) : Reply :=
  let u := s.port p
  match s.checkProducer p (u.arg8 0) (u.arg8 1) with
  | .error e => .refuse e
  | .ok (k, r) => if r.openUpdate.isSome then .take (s.closeUpdate p k) [] else .refuse .notOpen

def execAbandon (p : Port) (_v : Byte) (s : State) : Host.Outcome State Fault Refusal :=
  .next (s.issue p .abandon (State.abandonBody p))

/-! ### The commit of one slot (R38 to R40, R44) -/

/-- The oldest version leaves the list: it becomes the staging cell if unpinned, else the owed cell (R11). -/
def rotateOut (pins : Nat) (c : CellNo) : NextCell := if pins = 0 then .staging c none else .owed c

/-- The cells of a record after its staging cell `c` was appended as the newest version (R11): with room in the list a
spare cell becomes the staging cell, else the oldest version leaves. `s` gives the pin counts. -/
def Record.rotated (r : Record) (s : State) (c : CellNo) : Record :=
  let all := r.versions ++ [c]
  let oldest := r.versions.headD c
  let out := { r with versions := all.tail, next := rotateOut (s.cell oldest).pins oldest }
  if all.length ≤ r.depth then
    match r.spares with
    | x :: rest => { r with versions := all, spares := rest, next := .staging x none }
    | [] => out
  else out

/-- The content record a commit completes in the staging cell (R39, R45). -/
def Content.committed (x : Content) (sequence : Seq) (t : Time) (length : Nat) (tag : Option GroupTag) : Content :=
  { x with sequence := sequence, commitTime := t, length := length, tag := tag }

/-- The slot was STALE: its commit carries RECOVERED (R40). -/
def Life.isStale : Life → Bool
  | .produced .stale _ _ => true
  | .produced .claimed _ _ => false
  | .produced .live _ _ => false
  | .orphaned _ => false

/-- Steps 1 to 7 of a commit of slot `k` by its producer `p` (R39, R40), at time `t` with a group tag or none: the state
after them, and what the PUBLISH job captures (R41). None where the slot holds no open update. -/
def State.commitSlot (s : State) (p : Port) (t : Time) (tag : Option GroupTag) (k : SlotNo) :
    Option (State × Published) :=
  match s.record k with
  | none => none
  | some r =>
    match r.next with
    | .owed _ => none
    | .staging _ none => none
    | .staging c (some u) =>
      let sequence := nextSequence r.lastSequence
      let content := (s.cell c).content.committed sequence t u.length tag
      let watched := evaluateWatch r.watch content
      let r' := { r.rotated s c with
                  lastSequence := sequence, life := .produced .live p (deadlineOf r.period (t + r.period)),
                  watch := watched.1 }
      let m : Published :=
        { subject := s.subject k r, producer := p, sequence := sequence, commitTime := t,
          byte0 := content.byteAt 0, byte1 := content.byteAt 1, recovered := r.life.isStale,
          limit := watched.2, answered := s.requestersOn k }
      let s := (s.setCell c { s.cell c with content := content }).setRecord k (some r')
      some ((s.updatePort p fun u => u.dropOpen k).endEntriesOn k, m)

/-- COMMIT, ARG0 slot, ARG1 incarnation (R37, R39). -/
def State.commitBody (p : Port) (s : State) : Reply :=
  let u := s.port p
  match s.checkProducer p (u.arg8 0) (u.arg8 1) with
  | .error e => .refuse e
  | .ok (k, r) =>
    match r.openUpdate with
    | none => .refuse .notOpen
    | some x =>
      if x.overrun then .refuse .overrun
      else if s.hasRoom then
        match s.commitSlot p s.etc none k with
        | none => .refuse .notOpen
        | some (t, m) => .take (t.admitJob (.publish [m])) (bytes32 m.sequence ++ bytes32 m.commitTime)
      else .refuse .retry

def execCommit (p : Port) (_v : Byte) (s : State) : Host.Outcome State Fault Refusal :=
  .next (s.issue p .commit (State.commitBody p))

/-- The members of a group committed one after another in open order (R44). -/
def State.commitMembers (p : Port) (t : Time) (tag : Option GroupTag) : List SlotNo → State → State × List Published
  | [], s => (s, [])
  | k :: rest, s =>
    match s.commitSlot p t tag k with
    | none => State.commitMembers p t tag rest s
    | some (s', m) =>
      let after := State.commitMembers p t tag rest s'
      (after.1, m :: after.2)

/-- An update of the port's open list has its overrun flag set (R43). -/
def State.anyOverrun (s : State) (ks : List SlotNo) : Bool :=
  ks.any fun k =>
    match s.record k with
    | none => false
    | some r =>
      match r.openUpdate with
      | none => false
      | some x => x.overrun

/-- COMMIT_GROUP (R43, R44). -/
def State.commitGroupBody (p : Port) (s : State) : Reply :=
  let u := s.port p
  if u.openList = [] then .refuse .notOpen
  else if s.anyOverrun u.openList then .refuse .overrun
  else if s.hasRoom then
    let count := u.groupCounter + 1
    let after := State.commitMembers p s.etc (some { port := p, count := count }) u.openList s
    let t := after.1.updatePort p fun u =>
      { u with groupCounter := count, openList := [], stagingPointer := none }
    .take (t.admitJob (.publish after.2)) ([BitVec.ofNat 8 after.2.length, count] ++ bytes32 s.etc)
  else .refuse .retry

def execCommitGroup (p : Port) (_v : Byte) (s : State) : Host.Outcome State Fault Refusal :=
  .next (s.issue p .commitGroup (State.commitGroupBody p))

end Sys2Proof.Machine
end

