-- ==== Sys2Proof/Machine/Window.lean ====
section
/-! DEFINITION. The commands of a port's transaction: chip-select, the address byte, and the data bytes that issue no
command (R32 to R34, R77 to R79, R96, R97, R108, R166 to R168, R171, R172, R176, R177). -/

namespace Sys2Proof.Machine

/-! ### Fixing a read byte (R166, R176) -/

/-- Capture a NOTICE group: the head entry, or EMPTY (R77, R78). -/
def PortUnit.captureNotice (u : PortUnit) : NoticeGroup :=
  match u.queue.entries with
  | [] => { image := emptyImage, held := false, index := 0 }
  | n :: _ => { image := n.image, held := true, index := 0 }

/-- The byte of a group that shifts out. -/
def NoticeGroup.readByte (g : NoticeGroup) : ReadByte := { value := g.image[g.index], effect := .noticeByte g }

/-- A read byte with no effect at its completion. -/
def ReadByte.plain (v : Byte) : ReadByte := { value := v, effect := .none }

/-- The next READ_DATA byte: the next unread payload byte, or 00H with UNDERRUN (R96). -/
def PortUnit.readDataByte (u : PortUnit) : ReadByte :=
  if u.valid = 0 then { value := 0, effect := .underrun }
  else { value := u.payload.getD (u.header.length - u.valid) 0, effect := .consume }

/-- A READ_HDR byte; byte 11 of a delivered version of length 0 ends READY at its completion (R97, R174). -/
def PortUnit.readHdrByte (u : PortUnit) (i : Fin 12) : ReadByte :=
  { value := u.header.image[i],
    effect := if i = 11 ∧ u.fetch = .ready ∧ u.header.length = 0 then .endReady else .none }

/-- Fix the value of the byte at a read address, with the captures tied to it (R166, R167, R172, R176): the state after
the captures, and the byte. -/
def State.fixByte (s : State) (p : Port) (a : Addr) : State × ReadByte :=
  let u := s.port p
  let n := a.toNat
  if n ≤ 0x03 then
    (s, { value := s.statusByte p (Fin.ofNat 4 n), effect := if n = 0x01 then .clearSticky else .none })
  else if n = 0x04 then (s, .plain u.result.code)
  else if n ≤ 0x0E then (s, .plain u.rdata[Fin.ofNat 10 (n - 0x05)])
  else if n = 0x0F then (s, .plain Config.versionByte)
  else if n ≤ 0x1B then (s, .plain u.args[Fin.ofNat 12 (n - 0x10)])
  else if n = 0x1C then
    (s.updatePort p fun u => { u with genLatch := s.generation }, .plain (s.generation.extractLsb' 8 8))
  else if n = 0x1D then (s, .plain (u.genLatch.extractLsb' 0 8))
  else if n = 0x1E then
    (s.updatePort p fun u => { u with timeLatch := s.etc }, .plain (s.etc.extractLsb' 24 8))
  else if n ≤ 0x21 then (s, .plain (u.timeLatch.extractLsb' (8 * (0x21 - n)) 8))
  else if n ≤ 0x2D then (s, u.readHdrByte (Fin.ofNat 12 (n - 0x22)))
  else if n = 0x2E then (s, u.readDataByte)
  else if n = 0x30 then (s, u.captureNotice.readByte)
  else (s, .plain 0)

/-- The transaction reads at an address with its next byte fixed. -/
def State.startByte (s : State) (p : Port) (a : Addr) : State :=
  let t := s.fixByte p a
  t.1.updatePort p fun u => { u with transaction := .read a t.2 }

/-! ### Completing a read byte (R166) -/

/-- The pop: the captured head entry leaves the queue (R77). -/
def Queue.pop (q : Queue) : Queue := { q with entries := q.entries.tail }

/-- The effect of a read byte at its completion (R166): sticky flags cleared (R171), a payload byte consumed or
UNDERRUN set (R96), READY ended (R97), a notice popped at the eighth byte of its group (R77). -/
def PortUnit.completed (u : PortUnit) (b : ReadByte) : PortUnit :=
  match b.effect with
  | .none => u
  | .clearSticky => u.clearSticky b.value
  | .consume =>
    { u with valid := u.valid - 1,
             fetch := if u.valid - 1 = 0 ∧ u.fetch = .ready then .idle else u.fetch }
  | .underrun => { u with underrun := true }
  | .endReady => if u.fetch = .ready then { u with fetch := .idle } else u
  | .noticeByte g => if g.index = 7 ∧ g.held = true then { u with queue := u.queue.pop } else u

/-- The byte after a byte of a NOTICE group: the next byte of the same group, or a new capture (R77). -/
def ReadByte.nextInGroup (b : ReadByte) : Option ReadByte :=
  match b.effect with
  | .noticeByte g => if g.index = 7 then none else some { g with index := g.index + 1 }.readByte
  | .none => none
  | .clearSticky => none
  | .consume => none
  | .underrun => none
  | .endReady => none

/-- The completion of the read byte of a transaction: its effect, then the next byte fixed (R166, R176). -/
def State.completeByte (s : State) (p : Port) (a : Addr) (b : ReadByte) : State :=
  let t := s.updatePort p fun u => u.completed b
  match b.nextInGroup with
  | some b' => t.updatePort p fun u => { u with transaction := .read (nextAddress a) b' }
  | none => t.startByte p (nextAddress a)

/-- The completion of a read byte that belongs to a row. A byte that is not shifting changes nothing (log 2, log 3). -/
def State.readByteOf (s : State) (p : Port) (row : ReadRow) : State :=
  if s.decodes p then
    match (s.port p).transaction with
    | .read a b => if readRow a = row then s.completeByte p a b else s
    | .idle => s
    | .ignored => s
    | .address => s
    | .write _ => s
    | .discarding => s
  else s

/-! ### Completing a write byte (R166, R167) -/

/-- The completion of a write byte that belongs to a row: its effect, then the address advances. A byte that is not
shifting changes nothing (log 2). -/
def State.writeByteOf (s : State) (p : Port) (row : WriteRow) (f : Addr → State → State) : State :=
  if s.decodes p then
    match (s.port p).transaction with
    | .write a =>
      if writeRow a = row then
        (f a s).updatePort p fun u => { u with transaction := .write (nextAddress a) }
      else s
    | .idle => s
    | .ignored => s
    | .address => s
    | .read _ _ => s
    | .discarding => s
  else s

/-! ### Staging (R32 to R34) -/

/-- A staged byte written into the staging cell at the staged length (R32). -/
def Content.stage (x : Content) (i : Nat) (v : Byte) : Content :=
  if h : i < 32 then { x with payload := x.payload.set i v } else x

/-- A staging byte refused: WRITE_DENIED is set (R33). -/
def State.denyStage (s : State) (p : Port) : State := s.updatePort p fun u => { u with writeDenied := true }

/-- A staging byte for the slot under the pointer (R32, R34). -/
def State.stageInto (s : State) (p : Port) (k : SlotNo) (v : Byte) : State :=
  match s.record k with
  | none => s.denyStage p
  | some r =>
    match r.next with
    | .staging c (some u) =>
      if u.length < Config.payloadCapacity then
        (s.setCell c { s.cell c with content := (s.cell c).content.stage u.length v }).setRecord k
          (some { r with next := .staging c (some { u with length := u.length + 1 }) })
      else s.setRecord k (some { r with next := .staging c (some { u with overrun := true }) })
    | .staging _ none => s.denyStage p
    | .owed _ => s.denyStage p

/-- A staging write of a port (R32 to R34). -/
def State.stageByte (s : State) (p : Port) (v : Byte) : State :=
  match (s.port p).stagingPointer with
  | none => s.denyStage p
  | some k => s.stageInto p k v

/-! ### The commands -/

/-- CHIP_SELECT_ASSERT: a transaction begins; the part ignores it while the port's pins are not decoded, or before the
ports are ready (R149, R166, R175). -/
def execChipSelectAssert (p : Port) (s : State) : Host.Outcome State Fault Refusal :=
  .next (if (s.port p).transaction = .idle then
    s.updatePort p fun u =>
      { u with transaction := if s.decodes p && s.ready then .address else .ignored }
  else s)

/-- ADDRESS_BYTE: bit 7 is the direction, bits 6 to 0 the window address; a read fixes its first byte (R166, R177). -/
def execAddressByte (p : Port) (b : Byte) (s : State) : Host.Outcome State Fault Refusal :=
  .next (if s.decodes p ∧ (s.port p).transaction = .address then
    if b.getLsbD 7 then s.startByte p (b.extractLsb' 0 7)
    else s.updatePort p fun u => { u with transaction := .write (b.extractLsb' 0 7) }
  else s)

/-- CHIP_SELECT_DEASSERT: the transaction ends; a byte cut short has no effect, and a head entry under read stays in
the queue (R78, R166, R177). -/
def execChipSelectDeassert (p : Port) (s : State) : Host.Outcome State Fault Refusal :=
  .next (s.updatePort p fun u => { u with transaction := .idle })

/-- ARG_WRITE: the byte is stored at its argument address (R168). -/
def execArgWrite (p : Port) (v : Byte) (s : State) : Host.Outcome State Fault Refusal :=
  .next (s.writeByteOf p .arg fun a t => t.updatePort p fun u => { u with args := u.args.set (argIndex a) v })

/-- WINDOW_WRITE_IGNORED: a write byte to a read-only or unassigned address; only the address advances (R167). -/
def execWindowWriteIgnored (p : Port) (_v : Byte) (s : State) : Host.Outcome State Fault Refusal :=
  .next (s.writeByteOf p .ignored fun _ t => t)

/-- STAGE_DATA: a staging write, in any port state (R32 to R34). -/
def execStageData (p : Port) (v : Byte) (s : State) : Host.Outcome State Fault Refusal :=
  .next (s.writeByteOf p .stage fun _ t => t.stageByte p v)

/-- NOTICE: one byte of a NOTICE group completes; the eighth pops the captured head entry (R77 to R79). -/
def execNotice (p : Port) (s : State) : Host.Outcome State Fault Refusal := .next (s.readByteOf p .notice)

/-- READ_DATA: one payload byte completes, or UNDERRUN is set (R96). -/
def execReadData (p : Port) (s : State) : Host.Outcome State Fault Refusal := .next (s.readByteOf p .readData)

/-- READ_HDR: one byte of the read header completes (R97, R174). -/
def execReadHdr (p : Port) (s : State) : Host.Outcome State Fault Refusal := .next (s.readByteOf p .readHdr)

/-- STATUS_READ: a read byte of STATUS completes, and STATUS1 clears the sticky flags it presented (R171); also every
read byte that has no row of its own (log 3). -/
def execStatusRead (p : Port) (s : State) : Host.Outcome State Fault Refusal := .next (s.readByteOf p .statusRead)

/-- TIME_CAPTURE: a read byte at 1DH completes and the first TIME byte is fixed with its capture, or a TIME byte
completes (R108, R176). -/
def execTimeCapture (p : Port) (s : State) : Host.Outcome State Fault Refusal := .next (s.readByteOf p .timeCapture)

/-- GEN_CAPTURE: a read byte at 1BH completes and the first GEN byte is fixed with its capture, or the first GEN byte
completes (R172, R176). -/
def execGenCapture (p : Port) (s : State) : Host.Outcome State Fault Refusal := .next (s.readByteOf p .genCapture)

end Sys2Proof.Machine
end

