-- ==== Sys2Proof/Machine/Dispatch.lean ====
section
/-! DEFINITION. `exec`: one arm for each command, each one direct call of the command's meaning. -/

namespace Sys2Proof.Machine

/-- The effect of a command on everything but the queue of waiting commands. -/
def exec (i : Instr) (s : State) : Host.Outcome State Fault Refusal :=
  match i with
  | .powerOn => Sys2Proof.Machine.execPowerOn s
  | .resetAssert => Sys2Proof.Machine.execResetAssert s
  | .resetRelease => Sys2Proof.Machine.execResetRelease s
  | .portsReady => Sys2Proof.Machine.execPortsReady s
  | .prstxAssert p => Sys2Proof.Machine.execPrstxAssert p s
  | .prstxRelease p => Sys2Proof.Machine.execPrstxRelease p s
  | .chipSelectAssert p => Sys2Proof.Machine.execChipSelectAssert p s
  | .addressByte p b => Sys2Proof.Machine.execAddressByte p b s
  | .chipSelectDeassert p => Sys2Proof.Machine.execChipSelectDeassert p s
  | .argWrite p v => Sys2Proof.Machine.execArgWrite p v s
  | .windowWriteIgnored p v => Sys2Proof.Machine.execWindowWriteIgnored p v s
  | .stageData p v => Sys2Proof.Machine.execStageData p v s
  | .notice p => Sys2Proof.Machine.execNotice p s
  | .readData p => Sys2Proof.Machine.execReadData p s
  | .readHdr p => Sys2Proof.Machine.execReadHdr p s
  | .statusRead p => Sys2Proof.Machine.execStatusRead p s
  | .timeCapture p => Sys2Proof.Machine.execTimeCapture p s
  | .genCapture p => Sys2Proof.Machine.execGenCapture p s
  | .join p v => Sys2Proof.Machine.execJoin p v s
  | .leave p v => Sys2Proof.Machine.execLeave p v s
  | .doze p v => Sys2Proof.Machine.execDoze p v s
  | .go p v => Sys2Proof.Machine.execGo p v s
  | .runTransition => Sys2Proof.Machine.execRunTransition s
  | .setExchange p v => Sys2Proof.Machine.execSetExchange p v s
  | .setQueue p v => Sys2Proof.Machine.execSetQueue p v s
  | .setFilter p v => Sys2Proof.Machine.execSetFilter p v s
  | .clearFilter p v => Sys2Proof.Machine.execClearFilter p v s
  | .setIrq p v => Sys2Proof.Machine.execSetIrq p v s
  | .claim p v => Sys2Proof.Machine.execClaim p v s
  | .release p v => Sys2Proof.Machine.execRelease p v s
  | .adopt p v => Sys2Proof.Machine.execAdopt p v s
  | .lookup p v => Sys2Proof.Machine.execLookup p v s
  | .openUpdate p v => Sys2Proof.Machine.execOpenUpdate p v s
  | .selectStage p v => Sys2Proof.Machine.execSelectStage p v s
  | .abandon p v => Sys2Proof.Machine.execAbandon p v s
  | .commit p v => Sys2Proof.Machine.execCommit p v s
  | .commitGroup p v => Sys2Proof.Machine.execCommitGroup p v s
  | .setWatch p v => Sys2Proof.Machine.execSetWatch p v s
  | .clearWatch p v => Sys2Proof.Machine.execClearWatch p v s
  | .fetch p v => Sys2Proof.Machine.execFetch p v s
  | .request p v => Sys2Proof.Machine.execRequest p v s
  | .cancelRequest p v => Sys2Proof.Machine.execCancelRequest p v s
  | .tick => Sys2Proof.Machine.execTick s
  | .scanVisitSlot => Sys2Proof.Machine.execScanVisitSlot s
  | .scanVisitEntry => Sys2Proof.Machine.execScanVisitEntry s
  | .orphaning p => Sys2Proof.Machine.execOrphaning p s
  | .distributionEvent => Sys2Proof.Machine.execDistributionEvent s
  | .copyCompletion => Sys2Proof.Machine.execCopyCompletion s

end Sys2Proof.Machine
end

