-- ==== Sys2Proof/Machine/Step.lean ====
section
/-! DEFINITION. One step of the part: the command at the front of the queue, or one CLKIN cycle when none waits. -/

namespace Sys2Proof.Machine

/-- One step. With a command waiting, it leaves the queue and has its effect. With none, one CLKIN cycle passes, which
in SETUP changes nothing (log 6). -/
def step (s : State) : Host.Outcome State Fault Refusal :=
  match s.pending with
  | [] => .next s.clkinCycle
  | i :: rest => exec i { s with pending := rest }

/-- The state with the command that a table word spells at the front of its queue: no word spells one (log 12). -/
def State.withFetchWord (s : State) (nbits w : Nat) : State :=
  match decodeTableWord nbits w with
  | some i => { s with pending := i :: s.pending }
  | none => s

end Sys2Proof.Machine
end

