-- ==== Sys2Proof/Safety.lean ====
section
/-! DEFINITION. What it means for a state of the part to be sound: the laws that the manual gives each block, one
predicate for each, and the words in which statements about commands are written. -/

namespace Sys2Proof

/-- The port whose transaction a command is a byte of; none for a command that is no byte (R166). -/
def Instr.byteOf : Instr → Option Port
  | .powerOn => none
  | .resetAssert => none
  | .resetRelease => none
  | .portsReady => none
  | .prstxAssert _ => none
  | .prstxRelease _ => none
  | .chipSelectAssert _ => none
  | .addressByte p _ => some p
  | .chipSelectDeassert _ => none
  | .argWrite p _ => some p
  | .windowWriteIgnored p _ => some p
  | .stageData p _ => some p
  | .notice p => some p
  | .readData p => some p
  | .readHdr p => some p
  | .statusRead p => some p
  | .timeCapture p => some p
  | .genCapture p => some p
  | .join p _ => some p
  | .leave p _ => some p
  | .doze p _ => some p
  | .go p _ => some p
  | .runTransition => none
  | .setExchange p _ => some p
  | .setQueue p _ => some p
  | .setFilter p _ => some p
  | .clearFilter p _ => some p
  | .setIrq p _ => some p
  | .claim p _ => some p
  | .release p _ => some p
  | .adopt p _ => some p
  | .lookup p _ => some p
  | .openUpdate p _ => some p
  | .selectStage p _ => some p
  | .abandon p _ => some p
  | .commit p _ => some p
  | .commitGroup p _ => some p
  | .setWatch p _ => some p
  | .clearWatch p _ => some p
  | .fetch p _ => some p
  | .request p _ => some p
  | .cancelRequest p _ => some p
  | .tick => none
  | .scanVisitSlot => none
  | .scanVisitEntry => none
  | .orphaning _ => none
  | .distributionEvent => none
  | .copyCompletion => none

/-- The part is reset at this command (R165). -/
def Instr.resetsPart : Instr → Bool
  | .powerOn => true
  | .resetAssert => true
  | _ => false

end Sys2Proof

namespace Sys2Proof.Machine

/-! ### Words for statements -/

/-- The outcome is a next state, and it satisfies `P`. -/
def Answers (o : Host.Outcome State Fault Refusal) (P : State → Prop) : Prop := ∃ t, o = .next t ∧ P t

/-- The pins of the port are decoded, and its transaction writes at this address: the next write byte completes there
(R149, R166). -/
def State.WritesAt (s : State) (p : Port) (a : Addr) : Prop :=
  s.resetPin = false ∧ (s.port p).prst = false ∧ (s.port p).transaction = .write a

/-- The pins of the port are decoded, and byte `b` shifts out at this address (R149, R166). -/
def State.ReadsAt (s : State) (p : Port) (a : Addr) (b : ReadByte) : Prop :=
  s.resetPin = false ∧ (s.port p).prst = false ∧ (s.port p).transaction = .read a b

/-- The next write byte of the port issues this command (R169). -/
def State.Issues (s : State) (p : Port) (c : Command) : Prop := s.WritesAt p c.address

/-- The port has joined: ACTIVE or DOZE (R148). -/
def State.Joined (s : State) (p : Port) : Prop := (s.port p).state = .active ∨ (s.port p).state = .doze

/-- A slot command that passes the port check and the mode check is about to be issued (R150, R151). -/
def State.SlotCommand (s : State) (p : Port) (c : Command) : Prop := s.Issues p c ∧ s.Joined p ∧ s.mode = .run

/-- The command that a byte written at the address of `c` issues (R169). -/
def Command.instr (c : Command) (p : Port) (v : Byte) : Instr :=
  match c with
  | .join => .join p v
  | .leave => .leave p v
  | .doze => .doze p v
  | .go => .go p v
  | .setExchange => .setExchange p v
  | .setQueue => .setQueue p v
  | .setFilter => .setFilter p v
  | .clearFilter => .clearFilter p v
  | .setIrq => .setIrq p v
  | .claim => .claim p v
  | .release => .release p v
  | .adopt => .adopt p v
  | .lookup => .lookup p v
  | .openUpdate => .openUpdate p v
  | .selectStage => .selectStage p v
  | .abandon => .abandon p v
  | .commit => .commit p v
  | .commitGroup => .commitGroup p v
  | .setWatch => .setWatch p v
  | .clearWatch => .clearWatch p v
  | .fetch => .fetch p v
  | .request => .request p v
  | .cancelRequest => .cancelRequest p v

/-- The command is refused: nothing changes but the end of DOZE, the transaction, and the result (R150, R170). -/
def Refuses (i : Instr) (p : Port) (s : State) (r : Result) : Prop :=
  exec i s = .next ((s.handCommand p).setResult p r [])

/-- The arguments ARG0 and ARG1 name slot `k`, which is not FREE and has the incarnation given (R5). -/
def State.Names (s : State) (p : Port) (k : SlotNo) (r : Record) : Prop :=
  ((s.port p).args[0]).toNat = k.val ∧ s.record k = some r ∧ (s.slot k).incarnation = (s.port p).args[1]

/-- The read byte at an address is fixed on the port, with the captures tied to it: GEN at its first byte, TIME at its
first byte (R108, R166, R172, R176). -/
def State.opensByte (s : State) (p : Port) (a : Addr) : State :=
  s.updatePort p fun u =>
    { u with
      transaction := .read a (s.fixByte p a).2,
      genLatch := if a = 0x1C then s.generation else u.genLatch,
      timeLatch := if a = 0x1E then s.etc else u.timeLatch }

/-- The cell that a fetch pins (R90). -/
def FetchState.pinned : FetchState → Option CellNo
  | .inFlight _ c => some c
  | .idle => none
  | .ready => none

/-- What another port's grant of the transfer path may do to a port: its copy phase turns to COPYING (R94, R101). -/
def FetchKept (f f' : FetchState) : Prop := f' = f ∨ ∃ x c, f = .inFlight x c ∧ f' = .inFlight .copying c

/-- Every port but `p` is as it was, but for a grant (R101). -/
def OtherPortsKept (p : Port) (s t : State) : Prop :=
  ∀ q, q ≠ p → { t.port q with fetch := (s.port q).fetch } = s.port q ∧ FetchKept (s.port q).fetch (t.port q).fetch

/-- The modes, the settings shared by the ports, the counters and the pins are as they were. -/
def SharedKept (s t : State) : Prop :=
  t.mode = s.mode ∧ t.tickPeriod = s.tickPeriod ∧ t.answerTimeout = s.answerTimeout ∧ t.orphanHold = s.orphanHold ∧
    t.generation = s.generation ∧ t.etc = s.etc ∧ t.prescaler = s.prescaler ∧ t.scan = s.scan ∧
    t.resetPin = s.resetPin ∧ t.ready = s.ready ∧ t.pending = s.pending

/-- The request table after the entries that satisfy `f` were removed. -/
def EntriesRemoved (f : Entry → Bool) (s t : State) : Prop :=
  ∀ i, t.entry i = (s.entry i).filter fun e => !f e

/-- The free pool and the detached cells after slot `k` with record `r` was freed (R19). Which cell stands where in
either is not visible. -/
def CellsFreed (r : Record) (s t : State) : Prop :=
  t.cells = s.cells ∧
    match r.next with
    | .staging c _ =>
      t.free.Perm (s.free ++ (r.versions.filter fun c => decide ((s.cell c).pins = 0)) ++ r.spares ++ [c]) ∧
        t.detached.Perm (s.detached ++ r.versions.filter fun c => decide (0 < (s.cell c).pins))
    | .owed c =>
      t.free.Perm (s.free ++ (r.versions.filter fun c => decide ((s.cell c).pins = 0)) ++ r.spares) ∧
        t.detached.Perm (s.detached ++ (r.versions.filter fun c => decide (0 < (s.cell c).pins)) ++ [c])

/-- The cells of a record after the commit of its staging cell `c` (R11); a spare cell becomes the staging cell, and
which one is not visible. `pins` is the pin count of the oldest version. -/
def CellsRotated (r r' : Record) (c : CellNo) (pins : CellNo → Nat) : Prop :=
  if r.versions.length < r.depth then
    r'.versions = r.versions ++ [c] ∧ ∃ x, r'.next = .staging x none ∧ r.spares.Perm (x :: r'.spares)
  else
    r'.versions = r.versions.tail ++ [c] ∧ r'.spares = r.spares ∧
      ∀ o, r.versions.head? = some o →
        (pins o = 0 → r'.next = .staging o none) ∧ (0 < pins o → r'.next = .owed o)

/-- A filter that is disabled and cleared (R47). -/
def noFilter : Filter :=
  { enabled := false, key := 0, mask := 0,
    options := { pub := false, coalesce := false, inlined := false, status := false, limits := false, wake := false } }

/-- The ports other than `p` that are ACTIVE (R162), in the manual's listing order (log 18). -/
def State.otherActive (s : State) (p : Port) : List Port :=
  allPorts.filter fun q => q != p && (s.port q).state == .active

/-- The state after the pin of a port's fetch in flight, if it has one, is dropped with the routing of R9 (R99). -/
def State.unpinnedBy (s : State) (p : Port) : State :=
  match (s.port p).fetch.pinned with
  | some c => s.unpinCell c
  | none => s

/-- The holder of the transfer path, the last granted requester and the fetch state of every port in `t` are those that
the grant leaves from `v` (R101). -/
def PathGranted (v t : State) : Prop :=
  t.path = v.grant.path ∧ t.lastGranted = v.grant.lastGranted ∧ ∀ q, (t.port q).fetch = (v.grant.port q).fetch

/-- The LEAVING entry of port `p` takes state `s` to `t` (R156), whatever the transaction and the result of the port
are. Its pinned cell is routed as `State.unpinCell` says (R9, R99), the path is free if its copy held it, and is granted
again without the port (R99, R101, R102). The last clause is the check of the barrier in SETUP (R162). -/
def LeavingEffects (p : Port) (s t : State) : Prop :=
  t.port p =
      { s.port p with
        state := if s.producedSlots p = [] then .offline else .leaving,
        vote := false, filters := Vector.replicate 8 noFilter,
        queue := { (s.port p).queue with
          entries := [], accepting := false, wakePending := false,
          irq := { urgent := true, level := true, fetch := true, levelAt := 1 } },
        openList := [], stagingPointer := none,
        fetch := .idle, fetchedSlot := none,
        header := { slot := 0, sequence := 0, commitTime := 0, length := 0, tag := none }, payload := [], valid := 0,
        prst := (t.port p).prst, transaction := (t.port p).transaction,
        result := (t.port p).result, rdata := (t.port p).rdata } ∧
    (∀ k, t.slot k =
      { incarnation := (s.slot k).incarnation,
        record := ((s.unpinnedBy p).record k).map fun r =>
          { r with
            next := match r.next with
              | .staging c x => .staging c (if k ∈ (s.port p).openList then none else x)
              | .owed c => .owed c } }) ∧
    EntriesRemoved (fun e => e.requester == p) s t ∧
    (∀ c, t.cell c =
      { s.cell c with
        pins := if (s.port p).fetch.pinned = some c then (s.cell c).pins - 1 else (s.cell c).pins }) ∧
    (t.free = (s.unpinnedBy p).free ∧ t.detached = (s.unpinnedBy p).detached) ∧
    (∀ q, q ≠ p → { t.port q with fetch := (s.port q).fetch, vote := (s.port q).vote } = s.port q) ∧
    PathGranted
      { s.updatePort p (fun u => { u with fetch := .idle }) with
        path := (match (s.port p).fetch with | .inFlight .copying _ => none | _ => s.path), jobs := t.jobs } t ∧
    (t.tickPeriod = s.tickPeriod ∧ t.answerTimeout = s.answerTimeout ∧ t.orphanHold = s.orphanHold ∧
      t.generation = s.generation ∧ t.resetPin = s.resetPin ∧ t.ready = s.ready ∧ t.pending = s.pending) ∧
    if s.mode = .setup ∧ s.otherActive p ≠ [] ∧ (∀ q ∈ s.otherActive p, (s.port q).vote = true) ∧
        s.jobs.length < 16 then
      t.mode = .run ∧ t.etc = 0 ∧ t.prescaler = 0 ∧ t.scan = 0 ∧ (∀ q, (t.port q).vote = false) ∧
        t.jobs = s.jobs ++ [.mode s.generation (s.otherActive p)]
    else
      t.mode = s.mode ∧ t.etc = s.etc ∧ t.prescaler = s.prescaler ∧ t.scan = s.scan ∧
        (∀ q, q ≠ p → (t.port q).vote = (s.port q).vote) ∧ t.jobs = s.jobs

/-! ### Cells and pins (R7, R8, R10) -/

/-- Every cell that the pool, the detached set or a slot holds, once for each holding. -/
def State.heldCells (s : State) : List CellNo :=
  s.free ++ s.detached ++ allSlots.flatMap fun k =>
    match s.record k with
    | some r => r.cells
    | none => []

/-- Every cell is in exactly one use, and a slot that is not FREE holds depth+1 cells (R7, R10). -/
def CellLaw (s : State) : Prop :=
  (∀ c, s.heldCells.count c = 1) ∧
    ∀ k r, s.record k = some r → r.versions.length + r.spares.length = r.depth ∧ 1 ≤ r.depth ∧ r.depth ≤ 6

/-- A pin count is the number of fetches in flight on the cell; free, spare and staging cells have none, owed and
detached cells have some (R7, R8). -/
def PinLaw (s : State) : Prop :=
  (∀ c, (s.cell c).pins = (allPorts.filter fun p => (s.port p).fetch.pinned == some c).length) ∧
    (∀ c ∈ s.free, (s.cell c).pins = 0) ∧
    (∀ c ∈ s.detached, 0 < (s.cell c).pins) ∧
    ∀ k r, s.record k = some r →
      (∀ c ∈ r.spares, (s.cell c).pins = 0) ∧
        (∀ c u, r.next = .staging c u → (s.cell c).pins = 0) ∧
        ∀ c, r.next = .owed c → 0 < (s.cell c).pins

/-! ### Versions (R6, R11, R38) -/

/-- Sequence numbers follow one another (R11, R38). -/
def Consecutive : List Seq → Prop
  | [] => True
  | [_] => True
  | x :: y :: rest => y = (if x = 0xFFFFFFFF then 1 else x + 1) ∧ Consecutive (y :: rest)

/-- The states of R6: CLAIMED has no version, LIVE has one, and a deadline stands exactly when the period is not 0. -/
def Record.stateLaw (r : Record) : Prop :=
  match r.life with
  | .produced .claimed _ d => r.versions = [] ∧ (d = none ↔ r.period = 0)
  | .produced .live _ d => r.versions ≠ [] ∧ (d = none ↔ r.period = 0)
  | .produced .stale _ d => d = none ↔ r.period = 0
  | .orphaned _ => True

/-- The version list is consecutive, last sequence is its newest and is 0 without a version (R6, R11). -/
def VersionLaw (s : State) : Prop :=
  ∀ k r, s.record k = some r →
    (r.lastSequence = 0 ↔ r.versions = []) ∧
      Consecutive (r.versions.map fun c => (s.cell c).content.sequence) ∧
      (∀ c, r.versions.getLast? = some c → (s.cell c).content.sequence = r.lastSequence) ∧
      r.stateLaw

/-! ### Updates (R27, R28) -/

/-- Open lists and open updates agree (R27, R28, R156). -/
def UpdateLaw (s : State) : Prop :=
  (∀ p, (s.port p).openList.Nodup ∧ (s.port p).openList.length ≤ 8 ∧
      (∀ k, (s.port p).stagingPointer = some k → k ∈ (s.port p).openList) ∧
      (∀ k ∈ (s.port p).openList,
        ∃ r, s.record k = some r ∧ r.openUpdate.isSome = true ∧ r.producer = some p) ∧
      (¬ s.Joined p → (s.port p).openList = [])) ∧
    ∀ k r u, s.record k = some r → r.openUpdate = some u →
      u.length ≤ 32 ∧ ∃ p, r.producer = some p ∧ k ∈ (s.port p).openList

/-! ### Keys (R2) -/

/-- No two slots that are not FREE hold the same key (R2). -/
def KeyLaw (s : State) : Prop :=
  ∀ i j x y, s.record i = some x → s.record j = some y → x.key = y.key → i = j

/-! ### Queues (R67, R68, R70, R83) -/

/-- The law of R70, with the ranges of the settings of a queue (R67, R68, R83). -/
def Queue.law (q : Queue) : Prop :=
  (16 ≤ q.depth ∧ q.depth ≤ 128 ∧ q.depth % 16 = 0) ∧ 1 ≤ q.threshold ∧ q.threshold ≤ q.depth - 1 ∧ 1 ≤ q.irq.levelAt ∧
    q.irq.levelAt ≤ q.depth ∧ q.fill ≤ q.depth ∧ (q.fill = q.depth → q.newestIsOverflow = true)

/-- Every queue keeps its law. -/
def QueueLaw (s : State) : Prop := ∀ p, (s.port p).queue.law

/-! ### The transfer path (R53, R101) -/

/-- The job queue holds at most 16 jobs, the holder of the path is one that has a transfer, and nobody waits for a free
path (R53, R101). -/
def PathLaw (s : State) : Prop :=
  s.jobs.length ≤ 16 ∧
    (∀ p, s.path = some (.port p) ↔ ∃ c, (s.port p).fetch = .inFlight .copying c) ∧
    (s.path = some .du → s.jobs ≠ []) ∧
    (s.path = none → ∀ r, s.waits r = false)

/-! ### Requests (R133, R139) -/

/-- The law of R133; and an entry's incarnation is its slot's, and its requester is not the producer (R139). -/
def RequestLaw (s : State) : Prop :=
  (∀ p, s.requestCount p ≤ 4) ∧
    (∀ i j x y, s.entry i = some x → s.entry j = some y → x.requester = y.requester → x.slot = y.slot → i = j) ∧
    ∀ i e, s.entry i = some e →
      (s.slot e.slot).incarnation = e.incarnation ∧
        ∃ r q, s.record e.slot = some r ∧ r.producer = some q ∧ q ≠ e.requester

/-! ### Ports (R81, R86, R148, R157) -/

/-- What a port holds in each port state (R81, R86, R148, R157). -/
def PortLaw (s : State) : Prop :=
  ∀ p, ((s.port p).queue.accepting = true ↔ s.Joined p) ∧
    ((s.port p).queue.wakePending = true → (s.port p).state = .doze) ∧
    ((s.port p).vote = true → s.Joined p) ∧
    (¬ s.Joined p →
      (s.port p).queue.entries = [] ∧ (s.port p).filters = Vector.replicate 8 noFilter ∧
        (s.port p).fetch = .idle ∧ s.requestCount p = 0) ∧
    ((s.port p).state = .offline → s.producedSlots p = []) ∧
    ((s.port p).state = .leaving → s.producedSlots p ≠ [])

/-! ### Modes (R104, R105, R109, R160) -/

/-- A job about no slot (R55). -/
def Job.aboutNoSlot : Job → Bool
  | .mode _ _ => true
  | .votesCleared _ _ => true
  | .publish _ => false
  | .stale _ _ _ _ => false
  | .answerNow _ _ _ _ _ _ => false
  | .requestFwd _ _ _ _ => false
  | .requestEnd _ _ _ _ => false
  | .appear _ _ _ => false
  | .orphan _ _ _ _ => false
  | .adopt _ _ _ => false
  | .withdraw _ _ _ _ => false

/-- What holds in SETUP (R104, R105, R109, R160, R151), and in RUN: no vote, and the prescaler in its range. -/
def ModeLaw (s : State) : Prop :=
  match s.mode with
  | .setup =>
    s.etc = 0 ∧ s.prescaler = 0 ∧ s.scan = 0 ∧ (∀ k, s.record k = none) ∧ (∀ i, s.entry i = none) ∧
      (∀ j ∈ s.jobs, j.aboutNoSlot = true) ∧
      ∀ p, (s.port p).state ≠ .doze ∧ (s.port p).fetch.pinned = none
  | .run => s.prescaler < s.tickPeriod.cycles ∧ ∀ p, (s.port p).vote = false

/-! ### All of them -/

/-- The state of the part is sound: every law of this file holds. -/
structure Sound (s : State) : Prop where
  cells : CellLaw s
  pins : PinLaw s
  versions : VersionLaw s
  updates : UpdateLaw s
  keys : KeyLaw s
  queues : QueueLaw s
  path : PathLaw s
  requests : RequestLaw s
  ports : PortLaw s
  mode : ModeLaw s

end Sys2Proof.Machine
end

