-- ==== Sys2Proof/Certificates/Slice0/Obligations.lean ====
section
/-! DEFINITION. The statements for the provers. Words used: `Answers`, `Refuses`, `State.Issues`, `State.SlotCommand`,
`State.Names` and the effects predicates stand in Safety.lean. `State.handCommand` is the return from DOZE and the
discarding of the rest of a command's transaction; `State.grant` is the grant of the transfer path, to one that
`State.waits`; `Transaction.ended` is a transaction that the part ends. Each has its statement here (`DozeEndsAtACommand`,
`GrantFollowsTheCyclicOrder`, `ReleasesAndPrstxOutsideTheExchange`). -/

open Sys2Proof Sys2Proof.Machine

/-! ### The queue of commands -/

/-- The front command leaves the queue and has its effect on the rest (the model's queue, log 12). -/
def Obligations.StepTakesTheFrontCommand : Prop :=
  ∀ (i : Instr) (rest : List Instr) (s : State),
    step { s with pending := i :: rest } = exec i { s with pending := rest }

/-- TICK counts in RUN and does nothing in SETUP; and with nothing waiting, a step is one CLKIN cycle, the N-th of which
is a tick, where N is 16, 160, 1,600 or 16,000 by the tick period (R104, R105; that it is a step's idle course is the
model's choice, log 6). -/
def Obligations.TicksAndClockCycles : Prop :=
  (∀ (s : State),
    (s.mode = .setup → exec .tick s = .next s) ∧
      (s.mode = .run → exec .tick s = .next { s with etc := s.etc + 1, prescaler := 0 })) ∧
    (∀ (s : State), s.pending = [] →
      (s.mode = .setup → step s = .next s) ∧
        (s.mode = .run → s.prescaler + 1 < s.tickPeriod.cycles →
          step s = .next { s with prescaler := s.prescaler + 1 }) ∧
        (s.mode = .run → s.tickPeriod.cycles ≤ s.prescaler + 1 →
          step s = .next { s with etc := s.etc + 1, prescaler := 0 })) ∧
    ([TickPeriod.us1, .us10, .us100, .ms1].map TickPeriod.cycles = [16, 160, 1600, 16000])

/-- Every command answers a next state, and none touches the commands that wait (log 15, log 12). -/
def Obligations.EveryCommandAnswers : Prop :=
  ∀ (i : Instr) (s : State), Answers (exec i s) fun t => t.pending = s.pending

/-! ### Resets and pins -/

/-- POWER_ON, and RESET_ASSERT on a released pin, give every block its reset state (R26, R27, R47, R53, R88, R90, R103,
R119, R147, R164, R165, R168, R170, R172). That the pins and the ready mark go as they do is log 8. -/
def Obligations.ResetGivesTheResetState : Prop :=
  ∀ (i : Instr) (s : State), (i = .powerOn ∨ i = .resetAssert ∧ s.resetPin = false) →
    Answers (exec i s) fun t =>
      (t.mode = .setup ∧ t.generation = 1 ∧ t.tickPeriod = .ms1 ∧ t.answerTimeout = 100 ∧ t.orphanHold = 0) ∧
        (∀ k, t.record k = none ∧ (t.slot k).incarnation = 0) ∧
        ((∀ c, c ∈ t.free ∧ (t.cell c).pins = 0) ∧ t.free.length = 384 ∧ t.detached = []) ∧
        (t.jobs = [] ∧ t.path = none ∧ t.lastGranted = .du) ∧
        (∀ e, t.entry e = none) ∧
        (t.etc = 0 ∧ t.prescaler = 0 ∧ t.scan = 0) ∧
        (t.resetPin = if i = .powerOn then s.resetPin else true) ∧ t.ready = false ∧
        ∀ p, t.port p =
          { state := .offline, vote := false, args := Vector.replicate 12 0, result := .none,
            rdata := Vector.replicate 10 0, openList := [], stagingPointer := none, writeDenied := false,
            groupCounter := 0, fetch := .idle, fetchedSlot := none,
            header := { slot := 0, sequence := 0, commitTime := 0, length := 0, tag := none },
            payload := [], valid := 0, underrun := false, discarded := false, timeLatch := 0, genLatch := 0,
            filters := Vector.replicate 8
              { enabled := false, key := 0, mask := 0,
                options := { pub := false, coalesce := false, inlined := false, status := false, limits := false, wake := false } },
            queue := { entries := [], depth := 32, threshold := 24, accepting := false, wakePending := false,
                       irq := { urgent := true, level := true, fetch := true, levelAt := 1 } },
            prst := (s.port p).prst, transaction := (s.port p).transaction.ended }

/-- RESET_RELEASE and PORTS_READY; the release of PRSTx; and its assertion on a port that has not joined, which ends the
transaction and the result and changes no port state (R149, R165, R170, R175). That the ports are ready with PORTS_READY,
after power-on as after RESET, is log 8; that PORTS_READY changes nothing under RESET is log 2; and that a transaction the
part ends stays ignored until chip-select is deasserted is log 9 (R149, R166). -/
def Obligations.ReleasesAndPrstxOutsideTheExchange : Prop :=
  (∀ (s : State),
    exec .resetRelease s = .next { s with resetPin := false } ∧
      (s.resetPin = false → exec .portsReady s = .next { s with ready := true }) ∧
      (s.resetPin = true → exec .portsReady s = .next s)) ∧
    (∀ (p : Port) (s : State),
      exec (.prstxRelease p) s = .next (s.updatePort p fun u => { u with prst := false }) ∧
        ((s.port p).prst = false → ¬ s.Joined p →
          exec (.prstxAssert p) s =
            .next (s.updatePort p fun u =>
              { u with prst := true, transaction := u.transaction.ended, result := .none,
                       rdata := Vector.replicate 10 0 }))) ∧
    (∀ (x : Transaction), x.ended = if x = .idle then .idle else .ignored)

/-- LEAVE, and the assertion of PRSTx, complete on every joined port with the LEAVING entry and its frame: the port's own
state is cleaned up, its updates close, its request entries go, its fetch is cancelled with its pin routed, the path is
granted again, and in SETUP the barrier is checked; LEAVE leaves OK as its result, PRSTx leaves NONE and ends the
transaction (R9, R99, R101, R102, R149, R155, R156, R157, R162; the order in which the MODE job of the barrier lists the
ports is log 18). -/
def Obligations.LeaveAndPrstxMakeTheLeavingEntry : Prop :=
  (∀ (p : Port) (v : Byte) (s : State), s.Issues p .leave → s.Joined p →
    Answers (exec (.leave p v) s) fun t =>
      LeavingEffects p s t ∧ (t.port p).result = .ok ∧ (t.port p).rdata = Vector.replicate 10 0 ∧
        (t.port p).transaction = .discarding ∧ (t.port p).prst = false) ∧
    (∀ (p : Port) (s : State), s.Joined p → (s.port p).prst = false →
      Answers (exec (.prstxAssert p) s) fun t =>
        LeavingEffects p s t ∧ (t.port p).result = .none ∧ (t.port p).rdata = Vector.replicate 10 0 ∧
          (t.port p).transaction = (s.port p).transaction.ended ∧ (t.port p).prst = true)

/-- While RESET or the port's PRSTx is asserted, no byte of the port has any effect (R149, R165). -/
def Obligations.IgnoredPinsTakeNoByte : Prop :=
  ∀ (i : Instr) (p : Port) (s : State), i.byteOf = some p → (s.resetPin = true ∨ (s.port p).prst = true) →
    exec i s = .next s

/-! ### The transaction -/

/-- Chip-select opens a transaction that awaits its address byte, or one that is ignored, and ends one. The address
byte selects the direction and the address, and fixes the first read byte. A transaction of an address byte alone changes
nothing but the GEN and TIME latches, when its first read byte is their first (R149, R166, R175, R176, R177; that a
transaction which begins while PRSTx or RESET is asserted, or before the ports are ready, stays ignored is log 9). -/
def Obligations.ChipSelectAndAddressByte : Prop :=
  (∀ (p : Port) (s : State),
    exec (.chipSelectDeassert p) s = .next (s.updatePort p fun u => { u with transaction := .idle }) ∧
      ((s.port p).transaction = .idle → s.resetPin = false → (s.port p).prst = false → s.ready = true →
        exec (.chipSelectAssert p) s = .next (s.updatePort p fun u => { u with transaction := .address })) ∧
      ((s.port p).transaction = .idle → (s.resetPin = true ∨ (s.port p).prst = true ∨ s.ready = false) →
        exec (.chipSelectAssert p) s = .next (s.updatePort p fun u => { u with transaction := .ignored }))) ∧
    (∀ (p : Port) (b : Byte) (s : State),
      s.resetPin = false → (s.port p).prst = false → (s.port p).transaction = .address →
        Answers (exec (.addressByte p b) s) fun t =>
          exec (.chipSelectDeassert p) t =
            .next (s.updatePort p fun u =>
              { u with
                transaction := .idle,
                genLatch := if b = 0x9C then s.generation else u.genLatch,
                timeLatch := if b = 0x9E then s.etc else u.timeLatch })) ∧
    (∀ (p : Port) (b : Byte) (s : State),
    s.resetPin = false → (s.port p).prst = false → (s.port p).transaction = .address →
      (b.toNat < 128 →
        exec (.addressByte p b) s =
          .next (s.updatePort p fun u => { u with transaction := .write (b.setWidth 7) })) ∧
        (128 ≤ b.toNat → exec (.addressByte p b) s = .next (s.opensByte p (b.setWidth 7))))

/-- What each address of the window presents when a read byte is fixed there, and the effect the byte has at its
completion; the eight bytes of a notice and the twelve of the read header; the bytes of a result; the codes of the
results and of the notice kinds; and the address of each of the 23 commands (R77, R78, R96, R97, R108, R166 to R174). -/
def Obligations.WindowPresents : Prop :=
  (∀ (p : Port) (s : State),
    ((s.fixByte p 0x00).2.value =
        (match (s.port p).state with | .offline => 0x00 | .active => 0x40 | .doze => 0x80 | .leaving => 0xC0) |||
          (if s.mode = .run then 0x20 else 0) ||| (if (s.port p).vote = true then 0x10 else 0) |||
          (match (s.port p).fetch with | .idle => 0x00 | .inFlight _ _ => 0x04 | .ready => 0x08) |||
          (if s.intActive p = true then 0x02 else 0) ||| (if (s.port p).queue.wakePending = true then 0x01 else 0)) ∧
      ((s.fixByte p 0x01).2.value =
        (if (s.port p).writeDenied = true then 0x04 else 0) ||| (if (s.port p).underrun = true then 0x02 else 0) |||
          (if (s.port p).discarded = true then 0x01 else 0)) ∧
      (s.fixByte p 0x02).2.value = BitVec.ofNat 8 (s.port p).queue.entries.length ∧
      (s.fixByte p 0x03).2.value = BitVec.ofNat 8 (s.port p).valid ∧
      (s.fixByte p 0x04).2.value = (s.port p).result.code ∧
      (∀ i : Fin 10, (s.fixByte p (BitVec.ofNat 7 (0x05 + i.val))).2.value = (s.port p).rdata[i]) ∧
      (s.fixByte p 0x0F).2.value = 0x22 ∧
      (∀ i : Fin 12, (s.fixByte p (BitVec.ofNat 7 (0x10 + i.val))).2.value = (s.port p).args[i]) ∧
      (s.fixByte p 0x1C).2.value = s.generation.extractLsb' 8 8 ∧
      (s.fixByte p 0x1D).2.value = (s.port p).genLatch.extractLsb' 0 8 ∧
      (s.fixByte p 0x1E).2.value = s.etc.extractLsb' 24 8 ∧
      (s.fixByte p 0x1F).2.value = (s.port p).timeLatch.extractLsb' 16 8 ∧
      (s.fixByte p 0x20).2.value = (s.port p).timeLatch.extractLsb' 8 8 ∧
      (s.fixByte p 0x21).2.value = (s.port p).timeLatch.extractLsb' 0 8 ∧
      (∀ i : Fin 12, (s.fixByte p (BitVec.ofNat 7 (0x22 + i.val))).2.value = (s.port p).header.image[i]) ∧
      ((s.port p).valid = 0 → (s.fixByte p 0x2E).2 = { value := 0, effect := .underrun }) ∧
      (0 < (s.port p).valid →
        (s.fixByte p 0x2E).2 =
          { value := (s.port p).payload.getD ((s.port p).header.length - (s.port p).valid) 0, effect := .consume }) ∧
      ((s.fixByte p 0x30).2 =
        { value := (s.port p).captureNotice.image[0], effect := .noticeByte (s.port p).captureNotice }) ∧
      ((s.fixByte p 0x01).2.effect = .clearSticky) ∧
      ((s.fixByte p 0x2D).2.effect =
        if (s.port p).fetch = .ready ∧ (s.port p).header.length = 0 then .endReady else .none) ∧
      (∀ a : Addr, a ∉ [0x01, 0x2D, 0x2E, 0x30] → (s.fixByte p a).2.effect = .none) ∧
      ∀ a : Addr, (a = 0x2F ∨ 0x30 < a.toNat) → (s.fixByte p a).2 = { value := 0, effect := .none }) ∧
    (∀ (n : Notice),
    n.image = #v[n.kind.code, n.slot, n.incarnation,
      (if n.more = true then 0x80 else 0) ||| (if n.recovered = true then 0x40 else 0) |||
        (if n.inlined = true then 0x20 else 0) ||| (if n.wake = true then 0x10 else 0) |||
        (if n.coalesced = true then 0x08 else 0) ||| n.detail.setWidth 8,
      (n.value >>> 8).setWidth 8, n.value.setWidth 8, (n.data >>> 8).setWidth 8, n.data.setWidth 8]) ∧
    (∀ (h : Header),
      h.image = #v[h.slot,
        (h.sequence >>> 24).setWidth 8, (h.sequence >>> 16).setWidth 8, (h.sequence >>> 8).setWidth 8,
        h.sequence.setWidth 8,
        (h.commitTime >>> 24).setWidth 8, (h.commitTime >>> 16).setWidth 8, (h.commitTime >>> 8).setWidth 8,
        h.commitTime.setWidth 8, BitVec.ofNat 8 h.length,
        (match h.tag with
          | none => 0x00
          | some t => match t.port with | .a => 0x80 | .b => 0x81 | .c => 0x82 | .d => 0x83),
        (match h.tag with
          | none => 0x00
          | some t => t.count)]) ∧
    (∀ (p : Port) (r : Result) (data : List Byte) (s : State),
      s.setResult p r data =
          (s.updatePort p fun u => { u with result := r, rdata := Vector.ofFn fun i : Fin 10 => data.getD i 0 }) ∧
        rdataOf data = Vector.ofFn fun i : Fin 10 => data.getD i 0) ∧
    (∀ (w : BitVec 16) (x : BitVec 32),
      bytes16 w = [(w >>> 8).setWidth 8, w.setWidth 8] ∧
        bytes32 x = [(x >>> 24).setWidth 8, (x >>> 16).setWidth 8, (x >>> 8).setWidth 8, x.setWidth 8]) ∧
    ([Result.none, .ok, .retry, .busy, .notJoined, .notOffline, .wrongMode, .badArg, .noSlot, .noCells, .keyInUse,
        .notOrphaned, .notProducer, .notOpen, .alreadyOpen, .tooManyOpen, .cellPending, .overrun, .noVersion, .notLive,
        .gone, .fetchBusy, .pending, .notPending, .tableFull, .staleSettings].map Result.code =
      [0x00, 0x01, 0x02, 0x03, 0x04, 0x05, 0x06, 0x07, 0x08, 0x09, 0x0A, 0x0B, 0x0C, 0x0D, 0x0E, 0x0F, 0x10, 0x11, 0x12,
        0x13, 0x14, 0x15, 0x16, 0x17, 0x18, 0x19]) ∧
    ([NoticeKind.published, .stale, .limit, .request, .answer, .requestEnded, .appeared, .orphaned, .adopted, .withdrawn,
        .overflow, .mode, .voteCleared].map NoticeKind.code =
      [0x01, 0x02, 0x03, 0x04, 0x05, 0x06, 0x07, 0x08, 0x09, 0x0A, 0x0B, 0x0C, 0x0D]) ∧
    ([Command.join, .leave, .doze, .go, .setExchange, .setQueue, .setFilter, .clearFilter, .setIrq, .claim, .release,
        .adopt, .lookup, .openUpdate, .selectStage, .abandon, .commit, .commitGroup, .setWatch, .clearWatch, .fetch,
        .request, .cancelRequest].map Command.address =
      [0x60, 0x61, 0x62, 0x63, 0x64, 0x65, 0x66, 0x67, 0x68, 0x69, 0x6A, 0x6B, 0x6C, 0x6D, 0x6E, 0x6F, 0x70, 0x71, 0x72,
        0x73, 0x74, 0x75, 0x76])

/-- ARG_WRITE stores its byte; a write to a read-only or unassigned address is ignored; either way the address advances,
but at READ_DATA and NOTICE (R166, R167, R168). -/
def Obligations.ArgumentAndIgnoredWrites : Prop :=
  (∀ (p : Port) (v : Byte) (n : Fin 12) (s : State), s.WritesAt p (BitVec.ofNat 7 (0x10 + n.val)) →
    exec (.argWrite p v) s =
      .next (s.updatePort p fun u =>
        { u with args := u.args.set n v, transaction := .write (BitVec.ofNat 7 (0x11 + n.val)) })) ∧
    (∀ (p : Port) (v : Byte) (a : Addr) (s : State), s.WritesAt p a →
      (a.toNat < 0x10 ∨ 0x1C ≤ a.toNat ∧ a.toNat < 0x60 ∧ a ≠ 0x2F ∨ 0x77 ≤ a.toNat) →
        exec (.windowWriteIgnored p v) s =
          .next (s.updatePort p fun u =>
            { u with transaction := .write (if a = 0x2E ∨ a = 0x30 then a else a + 1) }))

/-- STAGE_DATA: refused without a pointer; appended below 32 bytes; at 32 the overrun flag is set. Nothing else changes
(R32, R33, R34). -/
def Obligations.StageDataIsTaken : Prop :=
  (∀ (p : Port) (v : Byte) (s : State), s.WritesAt p 0x2F → (s.port p).stagingPointer = none →
    exec (.stageData p v) s = .next (s.updatePort p fun u => { u with writeDenied := true })) ∧
    (∀ (p : Port) (v : Byte) (k : SlotNo) (r : Record) (c : CellNo) (x : Update) (s : State),
      s.WritesAt p 0x2F → (s.port p).stagingPointer = some k → s.record k = some r →
        r.next = .staging c (some x) →
          (x.length < 32 →
            exec (.stageData p v) s =
              .next ((s.setCell c
                  { s.cell c with
                    content := { (s.cell c).content with
                                 payload := (s.cell c).content.payload.setIfInBounds x.length v } }).setRecord k
                (some { r with next := .staging c (some { length := x.length + 1, overrun := x.overrun }) }))) ∧
            (32 ≤ x.length →
              exec (.stageData p v) s =
                .next (s.setRecord k
                  (some { r with next := .staging c (some { length := x.length, overrun := true }) }))))

/-! ### Read bytes -/

/-- A group captures the head, or EMPTY; seven bytes only move on in the group; the eighth removes the captured entry
and the next group captures the head as it then stands (R77, R78). -/
def Obligations.NoticeBytesPop : Prop :=
  (∀ (u : PortUnit),
    (u.queue.entries = [] →
      u.captureNotice = { image := #v[0, 0, 0, 0, 0, 0, 0, 0], held := false, index := 0 }) ∧
      ∀ n ∈ u.queue.entries.head?, u.captureNotice = { image := n.image, held := true, index := 0 }) ∧
    (∀ (p : Port) (b : ReadByte) (g : NoticeGroup) (s : State), s.ReadsAt p 0x30 b → b.effect = .noticeByte g →
      (g.index ≠ 7 →
        exec (.notice p) s =
          .next (s.updatePort p fun u =>
            { u with
              transaction := .read 0x30
                { value := g.image[g.index + 1], effect := .noticeByte { g with index := g.index + 1 } } })) ∧
        (g.index = 7 → g.held = true →
          exec (.notice p) s =
            .next (State.opensByte
              (s.updatePort p fun u => { u with queue := { u.queue with entries := u.queue.entries.tail } }) p 0x30)) ∧
        (g.index = 7 → g.held = false → exec (.notice p) s = .next (s.opensByte p 0x30)))

/-- READ_DATA: a payload byte that was fixed is consumed, and the last one ends READY; a byte fixed with nothing left
sets UNDERRUN and changes no fetch state. The other read bytes: a byte with no effect only opens the next; STATUS1 clears
the flags it presented as set; the last READ_HDR byte of a delivered version of length 0 ends READY. The next byte
captures GEN at 1CH and TIME at 1EH (R96, R97, R108, R166, R171, R172, R174, R176; which row a byte belongs to is
log 3). -/
def Obligations.ReadBytes : Prop :=
  (∀ (p : Port) (b : ReadByte) (s : State), s.ReadsAt p 0x2E b →
    (b.effect = .consume → 1 < (s.port p).valid →
      exec (.readData p) s =
        .next (State.opensByte (s.updatePort p fun u => { u with valid := u.valid - 1 }) p 0x2E)) ∧
      (b.effect = .consume → (s.port p).valid = 1 → (s.port p).fetch = .ready →
        exec (.readData p) s =
          .next (State.opensByte (s.updatePort p fun u => { u with valid := 0, fetch := .idle }) p 0x2E)) ∧
      (b.effect = .underrun →
        exec (.readData p) s =
          .next (State.opensByte (s.updatePort p fun u => { u with underrun := true }) p 0x2E))) ∧
    (∀ (p : Port) (a : Addr) (b : ReadByte) (s : State), s.ReadsAt p a b → b.effect = .none →
    ((a.toNat < 0x1B ∨ a = 0x2F ∨ 0x30 < a.toNat) →
      exec (.statusRead p) s = .next (s.opensByte p (if a = 0x2F then a else a + 1))) ∧
      (a = 0x1B ∨ a = 0x1C → exec (.genCapture p) s = .next (s.opensByte p (a + 1))) ∧
      (0x1D ≤ a.toNat ∧ a.toNat ≤ 0x21 → exec (.timeCapture p) s = .next (s.opensByte p (a + 1))) ∧
      (0x22 ≤ a.toNat ∧ a.toNat ≤ 0x2D → exec (.readHdr p) s = .next (s.opensByte p (a + 1)))) ∧
    (∀ (p : Port) (b : ReadByte) (s : State), s.ReadsAt p 0x01 b → b.effect = .clearSticky →
      exec (.statusRead p) s =
        .next (State.opensByte
          (s.updatePort p fun u =>
            { u with
              writeDenied := if b.value.getLsbD 2 = true then false else u.writeDenied,
              underrun := if b.value.getLsbD 1 = true then false else u.underrun,
              discarded := if b.value.getLsbD 0 = true then false else u.discarded }) p 0x02)) ∧
    (∀ (p : Port) (b : ReadByte) (s : State), s.ReadsAt p 0x2D b → b.effect = .endReady →
      (s.port p).fetch = .ready →
        exec (.readHdr p) s =
          .next (State.opensByte (s.updatePort p fun u => { u with fetch := .idle }) p 0x2E))

/-! ### Port check, mode check, life cycle -/

/-- The port check, then the mode check: every command that fails one is refused with its code, and changes nothing but
the result, its transaction and DOZE (R150, R151). -/
def Obligations.PortAndModeChecksRefuse : Prop :=
  ∀ (c : Command) (p : Port) (v : Byte) (s : State), s.Issues p c →
    ((s.port p).state = .leaving → Refuses (c.instr p v) p s .busy) ∧
      ((s.port p).state = .offline → c ≠ .join → Refuses (c.instr p v) p s .notJoined) ∧
      (s.Joined p → c = .join → Refuses (c.instr p v) p s .notOffline) ∧
      (s.Joined p → s.mode = .run → c ∈ [Command.go, .setExchange, .setQueue] →
        Refuses (c.instr p v) p s .wrongMode) ∧
      (s.Joined p → s.mode = .setup →
        c ∈ [Command.doze, .claim, .release, .adopt, .lookup, .openUpdate, .selectStage, .abandon, .commit,
          .commitGroup, .setWatch, .clearWatch, .fetch, .request, .cancelRequest] →
        Refuses (c.instr p v) p s .wrongMode)

/-- A command of any class written in DOZE acts as the same command written in ACTIVE with wake pending clear; and taking
a command in hand discards the rest of its transaction (R154, R169). -/
def Obligations.DozeEndsAtACommand : Prop :=
  (∀ (c : Command) (p : Port) (v : Byte) (s : State), s.Issues p c → (s.port p).state = .doze →
    exec (c.instr p v) s =
      exec (c.instr p v) (s.updatePort p fun u =>
        { u with state := .active, queue := { u.queue with wakePending := false } })) ∧
    (∀ (p : Port) (s : State),
      ((s.port p).state = .doze →
        s.handCommand p = s.updatePort p fun u =>
          { u with state := .active, queue := { u.queue with wakePending := false }, transaction := .discarding }) ∧
        ((s.port p).state ≠ .doze →
          s.handCommand p = s.updatePort p fun u => { u with transaction := .discarding }))

/-- JOIN and DOZE taken (R152, R153). -/
def Obligations.JoinAndDozeTaken : Prop :=
  (∀ (p : Port) (v : Byte) (s : State), s.Issues p .join → (s.port p).state = .offline →
    exec (.join p v) s =
      .next (s.updatePort p fun u =>
        { u with
          state := .active, vote := false,
          queue := { u.queue with accepting := true, wakePending := false },
          transaction := .discarding, result := .ok, rdata := Vector.replicate 10 0 })) ∧
    (∀ (p : Port) (v : Byte) (s : State), s.Issues p .doze → s.Joined p → s.mode = .run →
      exec (.doze p v) s =
        .next (s.updatePort p fun u =>
          { u with
            state := .doze, queue := { u.queue with wakePending := false },
            transaction := .discarding, result := .ok, rdata := Vector.replicate 10 0 }))

/-- RUN_TRANSITION: in SETUP, with at least one ACTIVE port, every ACTIVE port's vote cast and room for the MODE job,
RUN begins; in every other case nothing changes (R162; that the row is the check of the barrier is log 5). GO: refused for
another generation; else the vote is cast and the barrier is checked, as RUN_TRANSITION does (R161, R162). The order in
which the MODE job lists the ports is log 18. -/
def Obligations.GoAndTheBarrier : Prop :=
  (∀ (s : State),
    (s.mode = .setup → (∃ p, (s.port p).state = .active) →
      (∀ p, (s.port p).state = .active → (s.port p).vote = true) → s.jobs.length < 16 →
        exec .runTransition s =
          .next (State.grant
            { s.updatePorts (fun _ u => { u with vote := false }) with
              mode := .run, etc := 0, prescaler := 0, scan := 0,
              jobs := s.jobs ++ [.mode s.generation
                ([Port.a, .b, .c, .d].filter fun p => (s.port p).state == .active)] })) ∧
      ((s.mode = .run ∨ (∀ p, (s.port p).state ≠ .active) ∨
          (∃ p, (s.port p).state = .active ∧ (s.port p).vote = false) ∨ 16 ≤ s.jobs.length) →
        exec .runTransition s = .next s)) ∧
    (∀ (p : Port) (v : Byte) (s : State), s.Issues p .go → (s.port p).state = .active → s.mode = .setup →
    ((s.port p).args[0] ++ (s.port p).args[1] ≠ s.generation → Refuses (.go p v) p s .staleSettings) ∧
      ((s.port p).args[0] ++ (s.port p).args[1] = s.generation →
        Answers (exec .runTransition
            (s.updatePort p fun u => { u with vote := true, transaction := .discarding })) fun t =>
          exec (.go p v) s = .next (t.setResult p .ok [])))

/-- SET_EXCHANGE and SET_QUEUE: the checks of their arguments, RETRY where votes stand and the job queue is full, and
the settings written with the new generation (R68, R159, R160). `w` is the port's unit after the command was taken in
hand; the job is admitted where a vote stood, and the order in which it lists the voters is log 18. -/
def Obligations.SettingsWrites : Prop :=
  (∀ (p : Port) (v : Byte) (s : State), s.Issues p .setExchange → (s.port p).state = .active → s.mode = .setup →
    let u := s.port p
    let hold := u.args[3] ++ u.args[4] ++ u.args[5] ++ u.args[6]
    let bad := 3 < (u.args[0]).toNat ∨ u.args[1] ++ u.args[2] = (0 : BitVec 16) ∨ 16777216 < hold.toNat
    let voters := [Port.a, .b, .c, .d].filter fun q => (s.port q).vote
    (bad → Refuses (.setExchange p v) p s .badArg) ∧
      (¬ bad → voters ≠ [] → 16 ≤ s.jobs.length → Refuses (.setExchange p v) p s .retry) ∧
      (¬ bad → (voters = [] ∨ s.jobs.length < 16) →
        exec (.setExchange p v) s =
          .next (State.setResult
            (let t := { (s.handCommand p).updatePorts (fun _ w => { w with vote := false }) with
              tickPeriod := if u.args[0] = 0 then .us1 else if u.args[0] = 1 then .us10
                else if u.args[0] = 2 then .us100 else .ms1,
              answerTimeout := u.args[1] ++ u.args[2], orphanHold := hold, generation := s.generation + 1 }
            if voters = [] then t
            else State.grant { t with jobs := s.jobs ++ [.votesCleared (s.generation + 1) voters] })
            p .ok (bytes16 (s.generation + 1))))) ∧
    (∀ (p : Port) (v : Byte) (s : State), s.Issues p .setQueue → (s.port p).state = .active → s.mode = .setup →
      let u := s.port p
      let depth := (u.args[0]).toNat
      let threshold := (u.args[1]).toNat
      let fits := u.queue.entries.length < depth ∨
        u.queue.entries.length = depth ∧ ∃ n ∈ u.queue.entries.getLast?, n.kind = .overflow
      let bad := ¬ (16 ≤ depth ∧ depth ≤ 128 ∧ depth % 16 = 0) ∨ threshold = 0 ∨ depth - 1 < threshold ∨ ¬ fits
      let voters := [Port.a, .b, .c, .d].filter fun q => (s.port q).vote
      (bad → Refuses (.setQueue p v) p s .badArg) ∧
        (¬ bad → voters ≠ [] → 16 ≤ s.jobs.length → Refuses (.setQueue p v) p s .retry) ∧
        (¬ bad → (voters = [] ∨ s.jobs.length < 16) →
          exec (.setQueue p v) s =
            .next (State.setResult
              (let t := { (State.updatePort (s.handCommand p) p fun w =>
                  { w with
                    queue :=
                      { w.queue with
                        depth := depth, threshold := threshold,
                        irq := { w.queue.irq with levelAt := min w.queue.irq.levelAt depth } } }).updatePorts
                    (fun _ w => { w with vote := false }) with
                generation := s.generation + 1 }
              if voters = [] then t
              else State.grant { t with jobs := s.jobs ++ [.votesCleared (s.generation + 1) voters] })
              p .ok (bytes16 (s.generation + 1)))))

/-- SET_FILTER, CLEAR_FILTER and SET_IRQ: their argument checks and their effects, in SETUP and in RUN (R48, R49, R83). -/
def Obligations.OwnSettings : Prop :=
  (∀ (p : Port) (v : Byte) (s : State), s.Issues p .setFilter → s.Joined p →
    let u := s.port p
    ((7 < (u.args[0]).toNat ∨ 63 < (u.args[7]).toNat) → Refuses (.setFilter p v) p s .badArg) ∧
      ∀ n : Fin 8, (u.args[0]).toNat = n.val → (u.args[7]).toNat ≤ 63 →
        exec (.setFilter p v) s =
          .next (State.setResult
            (State.updatePort (s.handCommand p) p fun w =>
              { w with
                filters := w.filters.set n
                  { enabled := true,
                    key := u.args[1] ++ u.args[2] ++ u.args[3],
                    mask := u.args[4] ++ u.args[5] ++ u.args[6],
                    options := { pub := (u.args[7]).getLsbD 0, coalesce := (u.args[7]).getLsbD 1,
                                 inlined := (u.args[7]).getLsbD 2, status := (u.args[7]).getLsbD 3,
                                 limits := (u.args[7]).getLsbD 4, wake := (u.args[7]).getLsbD 5 } } })
            p .ok [])) ∧
    (∀ (p : Port) (v : Byte) (s : State), s.Issues p .clearFilter → s.Joined p →
      let u := s.port p
      (7 < (u.args[0]).toNat → Refuses (.clearFilter p v) p s .badArg) ∧
        ∀ n : Fin 8, (u.args[0]).toNat = n.val →
          exec (.clearFilter p v) s =
            .next (State.setResult
              (State.updatePort (s.handCommand p) p fun w =>
                { w with
                  filters := w.filters.set n
                    { enabled := false, key := 0, mask := 0,
                      options := { pub := false, coalesce := false, inlined := false, status := false, limits := false, wake := false } } })
              p .ok [])) ∧
    (∀ (p : Port) (v : Byte) (s : State), s.Issues p .setIrq → s.Joined p →
      let u := s.port p
      let bad := 1 < (u.args[0]).toNat ∨ 1 < (u.args[1]).toNat ∨ 1 < (u.args[2]).toNat ∨ u.args[3] = 0 ∨
        u.queue.depth < (u.args[3]).toNat
      (bad → Refuses (.setIrq p v) p s .badArg) ∧
        (¬ bad →
          exec (.setIrq p v) s =
            .next (State.setResult
              (State.updatePort (s.handCommand p) p fun w =>
                { w with
                  queue := { w.queue with
                    irq :=
                      { urgent := u.args[0] == 1, level := u.args[1] == 1, fetch := u.args[2] == 1,
                        levelAt := (u.args[3]).toNat } } })
              p .ok [])))

/-! ### Records -/

/-- CLAIM: the five checks, in their order, and what each gives (R15). -/
def Obligations.ClaimIsCheckedInOrder : Prop :=
  ∀ (p : Port) (v : Byte) (s : State), s.SlotCommand p .claim →
    let u := s.port p
    let depth := (u.args[3]).toNat
    let bad := ¬ (1 ≤ depth ∧ depth ≤ 6 ∧ (u.args[4] ++ u.args[5] ++ u.args[6] ++ u.args[7]).toNat ≤ 16777216 ∧
      (u.args[8]).toNat ≤ 1)
    let held := ∃ k, ∃ r ∈ s.record k, r.key = u.args[0] ++ u.args[1] ++ u.args[2]
    let full := ∀ k, s.record k ≠ none
    (bad → Refuses (.claim p v) p s .badArg) ∧
      (¬ bad → held → Refuses (.claim p v) p s .keyInUse) ∧
      (¬ bad → ¬ held → full → Refuses (.claim p v) p s .noSlot) ∧
      (¬ bad → ¬ held → ¬ full → s.free.length < depth + 1 → Refuses (.claim p v) p s .noCells) ∧
      (¬ bad → ¬ held → ¬ full → depth + 1 ≤ s.free.length → 16 ≤ s.jobs.length →
        Refuses (.claim p v) p s .retry)

/-- CLAIM taken: the lowest FREE slot `k` becomes CLAIMED with what R16 gives each field, depth+1 cells leave the pool,
and the APPEAR job is admitted (R16, R17). Which free cells are taken is not visible, and the model takes the first
(log 7): here the pool is written as those, then the rest. -/
def Obligations.ClaimTakesTheLowestFreeSlot : Prop :=
  ∀ (p : Port) (v : Byte) (k : SlotNo) (c : CellNo) (spares rest : List CellNo) (s : State), s.SlotCommand p .claim →
    let u := s.port p
    let depth := (u.args[3]).toNat
    let key := u.args[0] ++ u.args[1] ++ u.args[2]
    let period := u.args[4] ++ u.args[5] ++ u.args[6] ++ u.args[7]
    let inc := (s.slot k).incarnation + 1
    1 ≤ depth → depth ≤ 6 → period.toNat ≤ 16777216 → (u.args[8]).toNat ≤ 1 →
      (∀ j, ∀ r ∈ s.record j, r.key ≠ key) → s.record k = none → (∀ j, j < k → s.record j ≠ none) →
      s.free = c :: (spares ++ rest) → spares.length = depth → s.jobs.length < 16 →
        exec (.claim p v) s =
          .next (State.setResult
            (State.grant
              { (s.handCommand p).setSlot k
                  { incarnation := inc,
                    record := some
                      { key := key, depth := depth, versions := [], next := .staging c none, spares := spares,
                        lastSequence := 0, period := period, autoAnswer := u.args[8] == 1,
                        life := .produced .claimed p (if period = 0 then none else some (s.etc + 2 * period)),
                        watch := none } } with
                free := rest,
                jobs := s.jobs ++ [.appear { key := key, slot := k, incarnation := inc } p s.etc] })
            p .ok [BitVec.ofNat 8 k.val, inc])

/-- The checks of the slot and of the producer, in their order: BAD_ARG for a slot number above 63, GONE for a FREE slot
or another incarnation, NOT_PRODUCER for another producer or none (R5, R18, R22, R29, R31, R35, R37, R124). -/
def Obligations.SlotAndProducerChecks : Prop :=
  ∀ (c : Command) (p : Port) (v : Byte) (s : State), s.SlotCommand p c →
    (c ∈ [Command.release, .openUpdate, .selectStage, .abandon, .commit, .setWatch, .clearWatch, .fetch, .request,
        .cancelRequest] →
      63 < ((s.port p).args[0]).toNat → Refuses (c.instr p v) p s .badArg) ∧
      ∀ k : SlotNo, ((s.port p).args[0]).toNat = k.val →
        (c ∈ [Command.release, .openUpdate, .selectStage, .abandon, .commit, .clearWatch, .request,
            .cancelRequest] →
          (s.record k = none ∨ (s.slot k).incarnation ≠ (s.port p).args[1]) →
            Refuses (c.instr p v) p s .gone) ∧
          (c ∈ [Command.release, .openUpdate, .selectStage, .abandon, .commit, .clearWatch] →
            ∀ r ∈ s.record k, (s.slot k).incarnation = (s.port p).args[1] → r.producer ≠ some p →
              Refuses (c.instr p v) p s .notProducer)

/-- RELEASE by the producer: RETRY on a full job queue; else its update closes, the waiting entries end, the slot is
freed and the WITHDRAW job is admitted; the path is granted as a free path is, and all else stays (R18, R19, R20, R101).
The job lists the requesters of the entries that wait on the slot and its incarnation (R142); that it lists the lowest
position first is the model's choice, which no notice shows (log 18). -/
def Obligations.ReleaseEndsTheRecord : Prop :=
  (∀ (p : Port) (v : Byte) (k : SlotNo) (r : Record) (s : State), s.SlotCommand p .release → s.Names p k r →
    r.producer = some p →
      (16 ≤ s.jobs.length → Refuses (.release p v) p s .retry) ∧
        (s.jobs.length < 16 →
          Answers (exec (.release p v) s) fun t =>
            (t.record k = none ∧ (t.slot k).incarnation = (s.slot k).incarnation ∧
                ∀ j, j ≠ k → t.slot j = s.slot j) ∧
              CellsFreed r s t ∧
              EntriesRemoved (fun e => e.slot == k && e.incarnation == (s.slot k).incarnation) s t ∧
              t.jobs = s.jobs ++
                [.withdraw { key := r.key, slot := k, incarnation := (s.slot k).incarnation } r.lastSequence s.etc
                  (s.requestersOn k)] ∧
              { t.port p with fetch := (s.port p).fetch } =
                { (s.handCommand p).port p with
                  openList := (s.port p).openList.filter (fun j => j != k),
                  stagingPointer :=
                    if (s.port p).stagingPointer = some k then none else (s.port p).stagingPointer,
                  result := .ok, rdata := Vector.replicate 10 0 } ∧
              PathGranted { s with jobs := t.jobs } t ∧
              FetchKept (s.port p).fetch (t.port p).fetch ∧ OtherPortsKept p s t ∧ SharedKept s t)) ∧
    (∀ (k : SlotNo) (s : State),
      s.requestersOn k =
        (List.finRange 16).filterMap fun i => match s.requests[i] with
          | some e => if e.slot = k ∧ e.incarnation = (s.slot k).incarnation then some e.requester else none
          | none => none)

/-- ADOPT: NOT_ORPHANED where no ORPHANED slot holds the key; RETRY on a full job queue; else the caller is producer,
STALE with versions and CLAIMED without, with the start-up grace (R23, R24). -/
def Obligations.AdoptTakesOverAnOrphan : Prop :=
  (∀ (p : Port) (v : Byte) (s : State), s.SlotCommand p .adopt →
    (∀ k, ∀ r ∈ s.record k, r.key = (s.port p).args[0] ++ (s.port p).args[1] ++ (s.port p).args[2] →
      r.isOrphan = false) →
        Refuses (.adopt p v) p s .notOrphaned) ∧
    (∀ (p : Port) (v : Byte) (k : SlotNo) (r : Record) (s : State), s.SlotCommand p .adopt →
      s.record k = some r → r.key = (s.port p).args[0] ++ (s.port p).args[1] ++ (s.port p).args[2] →
      r.isOrphan = true → (∀ j, ∀ x ∈ s.record j, x.key = r.key → j = k) →
        (16 ≤ s.jobs.length → Refuses (.adopt p v) p s .retry) ∧
          (s.jobs.length < 16 →
            exec (.adopt p v) s =
              .next (State.setResult
                (State.grant
                  { (s.handCommand p).setRecord k
                      (some { r with
                        life := .produced (if r.versions = [] then .claimed else .stale) p
                          (if r.period = 0 then none else some (s.etc + 2 * r.period)) }) with
                    jobs := s.jobs ++
                      [.adopt { key := r.key, slot := k, incarnation := (s.slot k).incarnation } p s.etc] })
                p .ok [BitVec.ofNat 8 k.val, (s.slot k).incarnation])))

/-- LOOKUP reports the slot that holds the key, or 0FFH and zeros, and changes nothing but the result (R3, R169). -/
def Obligations.LookupReports : Prop :=
  (∀ (p : Port) (v : Byte) (s : State), s.SlotCommand p .lookup →
    (∀ k, ∀ r ∈ s.record k, r.key ≠ (s.port p).args[0] ++ (s.port p).args[1] ++ (s.port p).args[2]) →
      exec (.lookup p v) s =
        .next (s.updatePort p fun _ =>
          { (s.handCommand p).port p with result := .ok, rdata := #v[0xFF, 0, 0, 0, 0, 0, 0, 0, 0, 0] })) ∧
    (∀ (p : Port) (v : Byte) (k : SlotNo) (r : Record) (s : State), s.SlotCommand p .lookup →
      s.record k = some r → r.key = (s.port p).args[0] ++ (s.port p).args[1] ++ (s.port p).args[2] →
      (∀ j, ∀ x ∈ s.record j, x.key = r.key → j = k) →
        exec (.lookup p v) s =
          .next (s.updatePort p fun _ =>
            { (s.handCommand p).port p with
              result := .ok,
              rdata := #v[BitVec.ofNat 8 k.val, (s.slot k).incarnation,
                (match r.life with
                  | .produced .claimed _ _ => 1
                  | .produced .live _ _ => 2
                  | .produced .stale _ _ => 3
                  | .orphaned _ => 4),
                (match r.producer with
                  | some .a => 0
                  | some .b => 1
                  | some .c => 2
                  | some .d => 3
                  | none => 0xFF),
                BitVec.ofNat 8 r.depth, BitVec.ofNat 8 r.versions.length,
                (r.lastSequence >>> 24).setWidth 8, (r.lastSequence >>> 16).setWidth 8,
                (r.lastSequence >>> 8).setWidth 8, r.lastSequence.setWidth 8] }))

/-- ORPHANING: the lowest slot of a LEAVING port is orphaned when a job has room, its entries end, the port is OFFLINE
with its last, and the path is granted as a free path is (R21, R101, R142, R157); in every other case nothing changes
(R157; that an ORPHANING of a port that is not LEAVING, or produces no slot, changes nothing is log 2). -/
def Obligations.OrphaningTakesTheLowestSlot : Prop :=
  (∀ (p : Port) (k : SlotNo) (r : Record) (s : State), (s.port p).state = .leaving → s.jobs.length < 16 →
    s.record k = some r → r.producer = some p → (∀ j, j < k → s.producer j ≠ some p) →
      Answers (exec (.orphaning p) s) fun t =>
        (t.record k = some { r with life := .orphaned s.etc } ∧
            (t.slot k).incarnation = (s.slot k).incarnation ∧ ∀ j, j ≠ k → t.slot j = s.slot j) ∧
          EntriesRemoved (fun e => e.slot == k && e.incarnation == (s.slot k).incarnation) s t ∧
          t.jobs = s.jobs ++
            [.orphan { key := r.key, slot := k, incarnation := (s.slot k).incarnation } r.lastSequence s.etc
              (s.requestersOn k)] ∧
          { t.port p with fetch := (s.port p).fetch } =
            { s.port p with
              state := if ∀ j, s.producer j = some p → j = k then .offline else .leaving } ∧
          PathGranted { s with jobs := t.jobs } t ∧
          FetchKept (s.port p).fetch (t.port p).fetch ∧ OtherPortsKept p s t ∧ SharedKept s t ∧
          t.cells = s.cells ∧ t.free = s.free ∧ t.detached = s.detached) ∧
    (∀ (p : Port) (s : State),
      ((s.port p).state ≠ .leaving ∨ 16 ≤ s.jobs.length ∨ ∀ k, s.producer k ≠ some p) →
        exec (.orphaning p) s = .next s)

/-! ### Updates and commits -/

/-- OPEN_UPDATE by the producer: ALREADY_OPEN, TOO_MANY_OPEN, CELL_PENDING in that order; else an update of length 0 is
open, last in the open list, under the staging pointer (R29, R30). SELECT_STAGE and ABANDON by the producer: NOT_OPEN on a
closed update; else the pointer moves and length and overrun are reported, or the update closes (R31, R35, R36). -/
def Obligations.UpdatesOpenSelectAndAbandon : Prop :=
  (∀ (p : Port) (v : Byte) (k : SlotNo) (r : Record) (s : State), s.SlotCommand p .openUpdate → s.Names p k r →
    r.producer = some p →
      (r.openUpdate ≠ none → Refuses (.openUpdate p v) p s .alreadyOpen) ∧
        (r.openUpdate = none → 8 ≤ (s.port p).openList.length → Refuses (.openUpdate p v) p s .tooManyOpen) ∧
        (r.openUpdate = none → (s.port p).openList.length < 8 →
          (r.next = .owed r.next.cell → Refuses (.openUpdate p v) p s .cellPending) ∧
            (r.next = .staging r.next.cell none →
              exec (.openUpdate p v) s =
                .next (State.setResult
                  (State.updatePort
                    ((s.handCommand p).setRecord k
                      (some { r with next := .staging r.next.cell (some { length := 0, overrun := false }) })) p
                    fun w => { w with openList := w.openList ++ [k], stagingPointer := some k })
                  p .ok [])))) ∧
    (∀ (p : Port) (v : Byte) (k : SlotNo) (r : Record) (s : State), s.Names p k r → r.producer = some p →
    (s.SlotCommand p .selectStage →
      (r.openUpdate = none → Refuses (.selectStage p v) p s .notOpen) ∧
        ∀ x ∈ r.openUpdate,
          exec (.selectStage p v) s =
            .next (State.setResult
              (State.updatePort (s.handCommand p) p fun w => { w with stagingPointer := some k })
              p .ok [BitVec.ofNat 8 x.length, if x.overrun = true then 1 else 0])) ∧
      (s.SlotCommand p .abandon →
        (r.openUpdate = none → Refuses (.abandon p v) p s .notOpen) ∧
          (r.openUpdate ≠ none →
            exec (.abandon p v) s =
              .next (State.setResult
                (State.updatePort
                  ((s.handCommand p).setRecord k (some { r with next := .staging r.next.cell none })) p
                  fun w =>
                    { w with
                      openList := w.openList.filter (fun j => j != k),
                      stagingPointer := if w.stagingPointer = some k then none else w.stagingPointer })
                p .ok []))))

/-- COMMIT by the producer is refused with NOT_OPEN, OVERRUN or RETRY, in that order; COMMIT_GROUP with NOT_OPEN on an
empty open list, OVERRUN on any overrun update of the list, or RETRY, in that order (R37, R43). -/
def Obligations.CommitsAreRefusedInOrder : Prop :=
  (∀ (p : Port) (v : Byte) (k : SlotNo) (r : Record) (s : State), s.SlotCommand p .commit → s.Names p k r →
    r.producer = some p →
      (r.openUpdate = none → Refuses (.commit p v) p s .notOpen) ∧
        ∀ x ∈ r.openUpdate,
          (x.overrun = true → Refuses (.commit p v) p s .overrun) ∧
            (x.overrun = false → 16 ≤ s.jobs.length → Refuses (.commit p v) p s .retry)) ∧
    (∀ (p : Port) (v : Byte) (s : State), s.SlotCommand p .commitGroup →
      let overrun := ∃ k ∈ (s.port p).openList, ∃ r ∈ s.record k, ∃ x ∈ r.openUpdate, x.overrun = true
      ((s.port p).openList = [] → Refuses (.commitGroup p v) p s .notOpen) ∧
        ((s.port p).openList ≠ [] → overrun → Refuses (.commitGroup p v) p s .overrun) ∧
        ((s.port p).openList ≠ [] → ¬ overrun → 16 ≤ s.jobs.length → Refuses (.commitGroup p v) p s .retry))

/-- COMMIT taken on slot `k` with staging cell `c` and update `x`: the version is numbered and stamped, the cells are
rotated, the update closes, the slot is LIVE with its deadline re-armed, the watch is evaluated, the waiting entries are
answered, the PUBLISH job captures what R41 lists, and the path is granted as a free path is; all else stays (R11, R38,
R39, R40, R41, R101, R139). The first premise on `r` is what `CellLaw` says of it. A payload byte that a job captures beyond
the length is 00H (R41). -/
def Obligations.CommitMakesAVersion : Prop :=
  (∀ (p : Port) (v : Byte) (k : SlotNo) (r : Record) (c : CellNo) (x : Update) (s : State),
    s.SlotCommand p .commit → s.Names p k r → r.producer = some p →
    r.versions.length + r.spares.length = r.depth → 1 ≤ r.depth →
    r.next = .staging c (some x) → x.overrun = false → s.jobs.length < 16 →
      let inc := (s.slot k).incarnation
      let sequence := if r.lastSequence = 0xFFFFFFFF then 1 else r.lastSequence + 1
      let content : Content :=
        { sequence := sequence, commitTime := s.etc, length := x.length, payload := (s.cell c).content.payload,
          tag := none }
      let watched := evaluateWatch r.watch content
      Answers (exec (.commit p v) s) fun t =>
        (∀ d, t.cell d = if d = c then { content := content, pins := (s.cell c).pins } else s.cell d) ∧
          (∃ r', t.record k = some r' ∧
            { r' with versions := r.versions, next := r.next, spares := r.spares } =
              { r with
                lastSequence := sequence,
                life := .produced .live p (if r.period = 0 then none else some (s.etc + r.period)),
                watch := watched.1 } ∧
            CellsRotated r r' c (fun d => (s.cell d).pins)) ∧
          (t.slot k).incarnation = inc ∧ (∀ j, j ≠ k → t.slot j = s.slot j) ∧
          t.free = s.free ∧ t.detached = s.detached ∧
          EntriesRemoved (fun e => e.slot == k && e.incarnation == inc) s t ∧
          t.jobs = s.jobs ++
            [.publish
              [{ subject := { key := r.key, slot := k, incarnation := inc }, producer := p, sequence := sequence,
                 commitTime := s.etc, byte0 := content.byteAt 0, byte1 := content.byteAt 1,
                 recovered := (match r.life with | .produced .stale _ _ => true | _ => false),
                 limit := watched.2, answered := s.requestersOn k }]] ∧
          { t.port p with fetch := (s.port p).fetch } =
            { (s.handCommand p).port p with
              openList := (s.port p).openList.filter (fun j => j != k),
              stagingPointer := if (s.port p).stagingPointer = some k then none else (s.port p).stagingPointer,
              result := .ok, rdata := rdataOf (bytes32 sequence ++ bytes32 s.etc) } ∧
          PathGranted { s with jobs := t.jobs } t ∧
          FetchKept (s.port p).fetch (t.port p).fetch ∧ OtherPortsKept p s t ∧ SharedKept s t) ∧
    (∀ (x : Content) (i : Nat), x.byteAt i = if i < x.length then x.payload.toList.getD i 0 else 0)

/-- COMMIT_GROUP taken: the counter rises, every open update is committed with the shared time and tag, each with its own
sequence, RECOVERED, watch outcome and answered requesters, in open order in one PUBLISH job, and the open list is empty;
a member keeps its key, depth, period, auto-answer and incarnation, the other slots and cells stay, and the path is granted
as a free path is (R11, R40, R44, R45, R46, R101, R139). The premises are the invariants of the open lists and the cells. -/
def Obligations.CommitGroupCommitsEveryMember : Prop :=
  ∀ (p : Port) (v : Byte) (s : State), s.SlotCommand p .commitGroup → UpdateLaw s → CellLaw s →
    (s.port p).openList ≠ [] →
    (∀ k ∈ (s.port p).openList, ∀ r ∈ s.record k, ∀ x ∈ r.openUpdate, x.overrun = false) →
    s.jobs.length < 16 →
      let ks := (s.port p).openList
      let count := (s.port p).groupCounter + 1
      let content := fun (r : Record) (x : Update) =>
        ({ sequence := if r.lastSequence = 0xFFFFFFFF then 1 else r.lastSequence + 1, commitTime := s.etc,
           length := x.length, payload := (s.cell r.next.cell).content.payload,
           tag := some { port := p, count := count } } : Content)
      let published := fun (k : SlotNo) (r : Record) (x : Update) =>
        ({ subject := { key := r.key, slot := k, incarnation := (s.slot k).incarnation }, producer := p,
           sequence := (content r x).sequence, commitTime := s.etc, byte0 := (content r x).byteAt 0,
           byte1 := (content r x).byteAt 1,
           recovered := (match r.life with | .produced .stale _ _ => true | _ => false),
           limit := (evaluateWatch r.watch (content r x)).2, answered := s.requestersOn k } : Published)
      Answers (exec (.commitGroup p v) s) fun t =>
        { t.port p with fetch := (s.port p).fetch } =
            { (s.handCommand p).port p with
              openList := [], stagingPointer := none, groupCounter := count, result := .ok,
              rdata := rdataOf ([BitVec.ofNat 8 ks.length, count] ++ bytes32 s.etc) } ∧
          t.jobs = s.jobs ++
            [.publish (ks.filterMap fun k =>
              (s.record k).bind fun r => r.openUpdate.map fun x => published k r x)] ∧
          (∀ k ∈ ks, ∀ r ∈ s.record k, ∀ x ∈ r.openUpdate,
            (∃ r', t.record k = some r' ∧
              { r' with versions := r.versions, next := r.next, spares := r.spares } =
                { r with
                  lastSequence := (content r x).sequence,
                  life := .produced .live p (if r.period = 0 then none else some (s.etc + r.period)),
                  watch := (evaluateWatch r.watch (content r x)).1 } ∧
              CellsRotated r r' r.next.cell (fun d => (s.cell d).pins)) ∧
            (t.slot k).incarnation = (s.slot k).incarnation ∧
            t.cell r.next.cell = { content := content r x, pins := (s.cell r.next.cell).pins }) ∧
          (∀ d, (∀ k ∈ ks, ∀ r ∈ s.record k, r.next.cell ≠ d) → t.cell d = s.cell d) ∧
          (∀ k, k ∉ ks → t.slot k = s.slot k) ∧
          EntriesRemoved (fun e => ks.contains e.slot && e.incarnation == (s.slot e.slot).incarnation) s t ∧
          t.free = s.free ∧ t.detached = s.detached ∧ PathGranted { s with jobs := t.jobs } t ∧
          OtherPortsKept p s t ∧ SharedKept s t

/-! ### The limit watch -/

/-- SET_WATCH and CLEAR_WATCH: the checks of R122 in their order, the watch replaced whole or removed, and the watch that
stood before reported (R122, R123, R124). -/
def Obligations.WatchCommands : Prop :=
  (∀ (p : Port) (v : Byte) (s : State), s.SlotCommand p .setWatch →
    let u := s.port p
    let bytes := (u.args[3]).toNat / 8
    let signed := u.args[4] = 1
    let low := if signed then (u.args[5] ++ u.args[6]).toInt else (u.args[5] ++ u.args[6]).toNat
    let high := if signed then (u.args[7] ++ u.args[8]).toInt else (u.args[7] ++ u.args[8]).toNat
    let least : Int := if signed then (if bytes = 1 then -128 else -32768) else 0
    let most : Int := if signed then (if bytes = 1 then 127 else 32767) else (if bytes = 1 then 255 else 65535)
    let good := (u.args[0]).toNat < 64 ∧ (u.args[3] = 8 ∨ u.args[3] = 16) ∧ (u.args[4]).toNat ≤ 1 ∧
      (u.args[2]).toNat + bytes ≤ 32 ∧ 1 ≤ (u.args[9]).toNat ∧ (u.args[9]).toNat ≤ 7 ∧
      least ≤ low ∧ low ≤ most ∧ least ≤ high ∧ high ≤ most ∧ low < high
    (¬ good → Refuses (.setWatch p v) p s .badArg) ∧
      ∀ k : SlotNo, (u.args[0]).toNat = k.val → good →
        ((s.record k = none ∨ (s.slot k).incarnation ≠ u.args[1]) → Refuses (.setWatch p v) p s .gone) ∧
          ∀ r ∈ s.record k, (s.slot k).incarnation = u.args[1] →
            (r.producer ≠ some p → Refuses (.setWatch p v) p s .notProducer) ∧
              (r.producer = some p →
                exec (.setWatch p v) s =
                  .next (State.setResult
                    ((s.handCommand p).setRecord k
                      (some { r with
                        watch := some
                          { offset := (u.args[2]).toNat,
                            width := if u.args[3] = 8 then .bits8 else .bits16,
                            signed := u.args[4] == 1, low := low, high := high,
                            confirm := (u.args[9]).toNat,
                            state := .inside, candidate := .inside, run := 0 } }))
                    p .ok
                    (match r.watch with
                      | none => [0, 0]
                      | some w => [1, match w.state with | .low => 1 | .high => 2 | .inside => 3])))) ∧
    (∀ (p : Port) (v : Byte) (k : SlotNo) (r : Record) (s : State), s.SlotCommand p .clearWatch → s.Names p k r →
      r.producer = some p →
        exec (.clearWatch p v) s =
          .next (State.setResult ((s.handCommand p).setRecord k (some { r with watch := none })) p .ok
            (match r.watch with
              | none => [0, 0]
              | some w => [1, match w.state with | .low => 1 | .high => 2 | .inside => 3])))

/-- A present sample: its side against the limits, the run, and the confirmation (R127, R128). -/
def Obligations.WatchConfirmsASide : Prop :=
  ∀ (w : Watch) (x : Content) (y : Int) (side : Side), w.sample x = some y → w.low < w.high →
    (side = .low ↔ y ≤ w.low) → (side = .high ↔ w.high ≤ y) →
      let run := if side = w.candidate then min (w.run + 1) 7 else 1
      (w.confirm ≤ run ∧ side ≠ w.state →
        w.evaluate x = ({ w with candidate := side, run := run, state := side }, some side)) ∧
        (¬ (w.confirm ≤ run ∧ side ≠ w.state) →
          w.evaluate x = ({ w with candidate := side, run := run }, none))

/-- The sample: missing where the version stops before the end of the field, which sets the run to 0 and no more; else
the field's bytes as a number of the watch's signedness, most significant byte first. A slot's watch is evaluated on the
committed version, and a slot without one captures no outcome (R125, R126). -/
def Obligations.WatchSamplesTheField : Prop :=
  (∀ (w : Watch) (x : Content),
    let bytes := match w.width with | .bits8 => 1 | .bits16 => 2
    let b0 := x.payload.toList.getD w.offset 0
    let b1 := x.payload.toList.getD (w.offset + 1) 0
    (x.length < w.offset + bytes → w.evaluate x = ({ w with run := 0 }, none)) ∧
      (w.offset + bytes ≤ x.length → w.width = .bits8 → w.signed = false →
        w.sample x = some (b0.toNat : Int)) ∧
      (w.offset + bytes ≤ x.length → w.width = .bits8 → w.signed = true → w.sample x = some b0.toInt) ∧
      (w.offset + bytes ≤ x.length → w.width = .bits16 → w.signed = false →
        w.sample x = some (256 * (b0.toNat : Int) + b1.toNat)) ∧
      (w.offset + bytes ≤ x.length → w.width = .bits16 → w.signed = true →
        w.sample x = some (b0 ++ b1).toInt)) ∧
    (∀ (w : Watch) (x : Content),
      evaluateWatch none x = (none, none) ∧ evaluateWatch (some w) x = (some (w.evaluate x).1, (w.evaluate x).2))

/-! ### Fetch and the transfer path -/

/-- FETCH: the checks in their order; else the chosen version's cell is pinned, the buffer is cleared, DISCARDED is set
where unread bytes are lost, and the fetch is in flight (R91, R92, R93). -/
def Obligations.FetchPinsAVersion : Prop :=
  ∀ (p : Port) (v : Byte) (k : SlotNo) (s : State), s.SlotCommand p .fetch →
    ((s.port p).args[0]).toNat = k.val →
      let u := s.port p
      (2 < (u.args[2]).toNat → Refuses (.fetch p v) p s .badArg) ∧
        ((u.args[2]).toNat ≤ 2 → (s.record k = none ∨ (s.slot k).incarnation ≠ u.args[1]) →
          Refuses (.fetch p v) p s .gone) ∧
        ∀ r ∈ s.record k, (s.slot k).incarnation = u.args[1] → (u.args[2]).toNat ≤ 2 →
          let chosen :=
            if u.args[2] = 0 then r.versions.getLast?
            else if u.args[2] = 1 then r.versions.head?
            else r.versions.find? fun c =>
              (s.cell c).content.sequence.setWidth 16 == u.args[3] ++ u.args[4]
          (u.fetch.pinned ≠ none → Refuses (.fetch p v) p s .fetchBusy) ∧
            (u.fetch.pinned = none → chosen = none → Refuses (.fetch p v) p s .noVersion) ∧
            (u.fetch.pinned = none → ∀ c ∈ chosen,
              exec (.fetch p v) s =
                .next (State.setResult
                  (State.grant
                    (State.updatePort
                      ((s.handCommand p).setCell c { s.cell c with pins := (s.cell c).pins + 1 }) p fun w =>
                        { w with
                          fetch := .inFlight .waiting c, fetchedSlot := some k,
                          header := { slot := 0, sequence := 0, commitTime := 0, length := 0, tag := none },
                          payload := [], valid := 0,
                          discarded := w.discarded || (w.fetch == .ready && decide (0 < w.valid)) }))
                  p .ok (bytes32 (s.cell c).content.sequence)))

/-- COPY_COMPLETION: the copy that holds the path fills the port's read buffer with the version, drops its pin and frees
the path, which is granted again (R95, R101); that the command changes nothing without such a copy is log 2. The last pin
of a cell is dropped: a detached cell returns to the pool, an owed cell becomes its slot's staging cell, and in every other
case only the count falls (R9; that a returned cell joins the free list at its end is log 7; the cells are in one use each:
`CellLaw`). -/
def Obligations.CopyCompletionAndUnpin : Prop :=
  (∀ (p : Port) (c : CellNo) (s : State), s.path = some (.port p) → (s.port p).fetch = .inFlight .copying c →
    exec .copyCompletion s =
      .next (State.grant
        { (State.unpinCell
            (s.updatePort p fun w =>
              { w with
                fetch := .ready,
                header :=
                  { slot := (match w.fetchedSlot with | some k => BitVec.ofNat 8 k.val | none => 0),
                    sequence := (s.cell c).content.sequence, commitTime := (s.cell c).content.commitTime,
                    length := (s.cell c).content.length, tag := (s.cell c).content.tag },
                payload := (s.cell c).content.payload.toList.take (s.cell c).content.length,
                valid := (s.cell c).content.length }) c) with
          path := none })) ∧
    (∀ (s : State), s.path.elim true (fun r => r == .du) = true → exec .copyCompletion s = .next s) ∧
    (∀ (c : CellNo) (s : State), CellLaw s → 0 < (s.cell c).pins →
    let t := s.setCell c { s.cell c with pins := (s.cell c).pins - 1 }
    (1 < (s.cell c).pins → s.unpinCell c = t) ∧
      ((s.cell c).pins = 1 → c ∈ s.detached →
        s.unpinCell c = { t with detached := s.detached.erase c, free := s.free ++ [c] }) ∧
      (∀ k, ∀ r ∈ s.record k, (s.cell c).pins = 1 → r.next = .owed c →
        s.unpinCell c = t.setRecord k (some { r with next := .staging c none })) ∧
      ∀ k, ∀ r ∈ s.record k, c ∈ r.versions → s.unpinCell c = t)

/-- The grant: no change while the path is held or nobody waits; else the first waiting requester after the last granted
one, in the cyclic order DU, A, B, C, D, holds the path, is the last granted, and a port's copy phase is COPYING. The DU
waits while a job stands and it does not hold the path, and a port while its fetch is IN_FLIGHT with copy phase WAITING
(R94, R101). -/
def Obligations.GrantFollowsTheCyclicOrder : Prop :=
  (∀ (s : State),
    let order : List Requester := [.du, .port .a, .port .b, .port .c, .port .d]
    let place := order.findIdx (fun r => r == s.lastGranted) + 1
    let waiting := (order.rotateLeft place).filter fun r => s.waits r
    (s.path ≠ none → s.grant = s) ∧
      (waiting = [] → s.grant = s) ∧
      (s.path = none → ∀ r ∈ waiting.head?,
        s.grant =
          { s.updatePorts (fun p w =>
              { w with
                fetch := if r = .port p then
                    (match w.fetch with | .inFlight _ c => .inFlight .copying c | f => f)
                  else w.fetch }) with
            path := some r, lastGranted := r })) ∧
    (∀ (s : State), s.waits .du = true ↔ s.jobs ≠ [] ∧ s.path ≠ some .du) ∧
    (∀ (p : Port) (s : State), s.waits (.port p) = true ↔ ∃ c, (s.port p).fetch = .inFlight .waiting c)

/-! ### Requests -/

/-- REQUEST is refused with NOT_PRODUCER, NOT_LIVE, PENDING, then, where an entry is made, TABLE_FULL, then, where a job
is needed, RETRY (R135, R136). A port's count is the number of positions whose entry has it as requester (R134). -/
def Obligations.RequestIsRefusedInOrder : Prop :=
  (∀ (p : Port) (v : Byte) (k : SlotNo) (r : Record) (s : State), s.SlotCommand p .request → s.Names p k r →
    let waits := fun (e : Entry) => e.slot == k && e.incarnation == (s.slot k).incarnation
    let mine := ∃ i, ∃ e ∈ s.entry i, e.requester = p ∧ waits e = true
    let first := ∀ i, ∀ e ∈ s.entry i, waits e = false
    let atOnce := r.autoAnswer = true ∧ r.versions ≠ [] ∧ r.openUpdate = none
    let room := (∃ i, s.entry i = none) ∧ s.requestCount p < 4
    (r.producer = some p → Refuses (.request p v) p s .notProducer) ∧
      (r.isOrphan = true → Refuses (.request p v) p s .notLive) ∧
      (r.isOrphan = false → r.producer ≠ some p →
        (mine → Refuses (.request p v) p s .pending) ∧
          (¬ mine → ¬ atOnce → ¬ room → Refuses (.request p v) p s .tableFull) ∧
          (¬ mine → (atOnce ∨ room ∧ first) → 16 ≤ s.jobs.length → Refuses (.request p v) p s .retry))) ∧
    (∀ (p : Port) (s : State),
      s.requestCount p =
        ((List.finRange 16).filter fun i => (s.requests[i]).any fun e => e.requester == p).length)

/-- REQUEST taken: answered at once from the newest version, with an ANSWER_NOW job; or an entry in the lowest empty
position, forwarded to the producer by a REQUEST_FWD job if it is the first on its slot (R134, R136, R137, R138). -/
def Obligations.RequestIsAnsweredOrWaits : Prop :=
  (∀ (p : Port) (v : Byte) (k : SlotNo) (r : Record) (c : CellNo) (s : State), s.SlotCommand p .request →
    s.Names p k r → r.isOrphan = false → r.producer ≠ some p →
    (∀ i, ∀ e ∈ s.entry i, ¬ (e.requester = p ∧ e.slot = k ∧ e.incarnation = (s.slot k).incarnation)) →
    r.autoAnswer = true → r.versions.getLast? = some c → r.openUpdate = none → s.jobs.length < 16 →
      let x := (s.cell c).content
      exec (.request p v) s =
        .next (State.setResult
          (State.grant
            { s.handCommand p with
              jobs := s.jobs ++
                [.answerNow { key := r.key, slot := k, incarnation := (s.slot k).incarnation } p x.sequence
                  x.commitTime (x.byteAt 0) (x.byteAt 1)] })
          p .ok ([1] ++ bytes32 x.sequence ++ bytes32 x.commitTime))) ∧
    (∀ (p q : Port) (v : Byte) (k : SlotNo) (r : Record) (i : EntryNo) (s : State), s.SlotCommand p .request →
      s.Names p k r → r.producer = some q → q ≠ p →
      (∀ j, ∀ e ∈ s.entry j, ¬ (e.requester = p ∧ e.slot = k ∧ e.incarnation = (s.slot k).incarnation)) →
      (r.autoAnswer = false ∨ r.versions = [] ∨ r.openUpdate ≠ none) →
      s.entry i = none → (∀ j, j < i → s.entry j ≠ none) → s.requestCount p < 4 →
        let deadline := s.etc + s.answerTimeout.setWidth 32
        let t := (s.handCommand p).setEntry i
          (some { requester := p, slot := k, incarnation := (s.slot k).incarnation, issueTime := s.etc,
                  deadline := deadline })
        let first := ∀ j, ∀ e ∈ s.entry j, ¬ (e.slot = k ∧ e.incarnation = (s.slot k).incarnation)
        (¬ first → exec (.request p v) s = .next (t.setResult p .ok ([2] ++ bytes32 deadline ++ [0]))) ∧
          (first → s.jobs.length < 16 →
            exec (.request p v) s =
              .next (State.setResult
                (State.grant
                  { t with
                    jobs := s.jobs ++
                      [.requestFwd { key := r.key, slot := k, incarnation := (s.slot k).incarnation } q
                        r.lastSequence s.etc] })
                p .ok ([2] ++ bytes32 deadline ++ [1]))))

/-- CANCEL_REQUEST: NOT_PENDING without an entry of the caller on the slot; else the entry is removed, with no job and no
notice, and nothing else changes (R141). -/
def Obligations.CancelRequestIsQuiet : Prop :=
  ∀ (p : Port) (v : Byte) (k : SlotNo) (r : Record) (s : State), s.SlotCommand p .cancelRequest → s.Names p k r →
    let mine := fun (e : Entry) => e.requester == p && (e.slot == k && e.incarnation == (s.slot k).incarnation)
    ((∀ i, ∀ e ∈ s.entry i, mine e = false) → Refuses (.cancelRequest p v) p s .notPending) ∧
      ((∃ i, ∃ e ∈ s.entry i, mine e = true) →
        Answers (exec (.cancelRequest p v) s) fun t =>
          EntriesRemoved mine s t ∧ { t with requests := s.requests } = (s.handCommand p).setResult p .ok [])

/-! ### Supervision -/

/-- SCAN_VISIT_SLOT: in RUN at a slot position, a reached deadline of a supervised CLAIMED or LIVE slot makes it STALE,
a reached orphan hold frees the slot, where a job has room; in every other case only the position moves.
SCAN_VISIT_ENTRY: in RUN at a request position, an entry whose answer deadline is reached is removed with a REQUEST_END
job, where it has room; in every other case only the position moves. With a job, the path is granted as a free path is. In
SETUP nothing happens (R101, R109, R111, R112, R115, R116, R117, R140; that a slot visit at a request position, and an
entry visit at a slot position, change nothing is log 2). -/
def Obligations.ScanVisits : Prop :=
  (∀ (s : State), (s.mode = .setup ∨ 64 ≤ s.scan.val) → exec .scanVisitSlot s = .next s) ∧
    (∀ (k : SlotNo) (r : Record) (s : State), s.mode = .run → s.scan.val = k.val → s.record k = some r →
      let about : Subject := { key := r.key, slot := k, incarnation := (s.slot k).incarnation }
      let lapsed : Bool := match r.life with
        | .produced .stale _ _ => false
        | .produced _ _ (some t) => r.period != 0 && decide ((s.etc - t).toNat < 2147483648)
        | _ => false
      let expired : Bool := match r.life with
        | .orphaned since => s.orphanHold != 0 && decide ((s.etc - (since + s.orphanHold)).toNat < 2147483648)
        | _ => false
      ((16 ≤ s.jobs.length ∨ lapsed = false ∧ expired = false) →
        exec .scanVisitSlot s = .next { s with scan := s.scan + 1 }) ∧
        (lapsed = true → s.jobs.length < 16 → ∀ p ∈ r.producer,
          exec .scanVisitSlot s =
            .next (State.grant
              { s.setRecord k
                  (some { r with
                    life := .produced .stale p
                      (match r.life with | .produced _ _ d => d | .orphaned _ => none) }) with
                scan := s.scan + 1, jobs := s.jobs ++ [.stale about p r.lastSequence s.etc] })) ∧
        (expired = true → s.jobs.length < 16 →
          Answers (exec .scanVisitSlot s) fun t =>
            t.record k = none ∧ (t.slot k).incarnation = (s.slot k).incarnation ∧
              (∀ j, j ≠ k → t.slot j = s.slot j) ∧ CellsFreed r s t ∧ t.requests = s.requests ∧
              t.jobs = s.jobs ++ [.withdraw about r.lastSequence s.etc []] ∧ t.scan = s.scan + 1 ∧
              SharedKept { s with scan := s.scan + 1 } t ∧ PathGranted { s with jobs := t.jobs } t ∧
              ∀ q, { t.port q with fetch := (s.port q).fetch } = s.port q ∧
                FetchKept (s.port q).fetch (t.port q).fetch)) ∧
    (∀ (k : SlotNo) (s : State), s.mode = .run → s.scan.val = k.val → s.record k = none →
      exec .scanVisitSlot s = .next { s with scan := s.scan + 1 }) ∧
    (∀ (s : State), (s.mode = .setup ∨ s.scan.val < 64) → exec .scanVisitEntry s = .next s) ∧
    (∀ (i : EntryNo) (s : State), s.mode = .run → s.scan.val = 64 + i.val →
      ((s.entry i = none ∨ 16 ≤ s.jobs.length ∨
          ∀ e ∈ s.entry i, 2147483648 ≤ (s.etc - e.deadline).toNat) →
        exec .scanVisitEntry s = .next { s with scan := s.scan + 1 }) ∧
        ∀ e ∈ s.entry i, ∀ r ∈ s.record e.slot, (s.etc - e.deadline).toNat < 2147483648 →
          s.jobs.length < 16 →
            exec .scanVisitEntry s =
              .next (State.grant
                { s.setEntry i none with
                  scan := s.scan + 1,
                  jobs := s.jobs ++
                    [.requestEnd { key := r.key, slot := e.slot, incarnation := e.incarnation } e.requester
                      r.lastSequence s.etc] }))

/-! ### Distribution -/

/-- DISTRIBUTION_EVENT: with the DU on the path, the notices of the head job are formed from every port's filters as they
stand and decided by its queue, the job leaves the queue, the path is free, in SETUP the barrier is checked, and the path
is granted again. The handing changes nothing of a port but its queue (R52, R53, R56, R69, R162; that nothing happens while
the DU does not hold the path is log 2). The head entry is under read while a byte of a group that captured it shifts out
(R79). -/
def Obligations.DistributionHandsTheHeadJob : Prop :=
  (∀ (j : Job) (rest : List Job) (s : State), s.path = some .du → s.jobs = j :: rest →
    let handed :=
      { s.updatePorts (fun p u =>
          { u with
            queue :=
              (j.noticesFor u.filters p).foldl
                (Queue.decideOne (u.state == .doze) u.transaction.holdsHead (s.etc.setWidth 16)) u.queue }) with
        jobs := rest, path := none }
    (s.mode = .run → exec .distributionEvent s = .next handed.grant) ∧
      (s.mode = .setup →
        Answers (exec .runTransition handed) fun t => exec .distributionEvent s = .next t.grant)) ∧
    (∀ (s : State), s.path ≠ some .du → exec .distributionEvent s = .next s) ∧
    (∀ (x : Transaction),
      x.holdsHead = true ↔ ∃ a v g, x = .read a { value := v, effect := .noticeByte g } ∧ g.held = true)

/-- The notices of a job for a port. A one-slot PUBLISH job: PUBLISHED to a subscriber with PUB that is not the captured
producer, then LIMIT to one with LIMITS, then ANSWER to an answered requester; and those of every other job about a record
or a mode (R58, R59, R61 to R65). -/
def Obligations.JobNotices : Prop :=
  (∀ (m : Published) (filters : Vector Filter 8) (p : Port),
    let o := optionsFor filters m.subject.key
    let slot := BitVec.ofNat 8 m.subject.slot.val
    let inc := m.subject.incarnation
    let low := m.sequence.setWidth 16
    let time := m.commitTime.setWidth 16
    let data := if o.inlined = true then m.byte0 ++ m.byte1 else time
    (Job.publish [m]).noticesFor filters p =
      (if o.pub = true ∧ m.producer ≠ p then
        [Handed.one
          { kind := .published, slot := slot, incarnation := inc, more := false, recovered := m.recovered,
            inlined := o.inlined, wake := false, coalesced := false, detail := 0, value := low, data := data,
            cls := .normal, coalescible := o.coalesce }]
        else []) ++
      (match m.limit with
        | none => []
        | some d =>
          if o.limits = true then
            [Handed.one
              { kind := .limit, slot := slot, incarnation := inc, more := false, recovered := false,
                inlined := false, wake := o.wake, coalesced := false,
                detail := (match d with | .low => 1 | .high => 2 | .inside => 3), value := low, data := time,
                cls := .urgent, coalescible := false }]
          else []) ++
      (if p ∈ m.answered then
        [Handed.one
          { kind := .answer, slot := slot, incarnation := inc, more := false, recovered := false,
            inlined := o.inlined, wake := false, coalesced := false, detail := 0, value := low, data := data,
            cls := .urgent, coalescible := false }]
        else [])) ∧
    (∀ (filters : Vector Filter 8) (p q : Port) (about : Subject) (l t : BitVec 32) (b0 b1 : Byte) (g : Half)
      (ports : List Port),
    let o := optionsFor filters about.key
    let note := fun (kind : NoticeKind) (cls : NoticeClass) (value data : Half) (wake inlined : Bool)
        (detail : BitVec 2) =>
      Handed.one
        { kind := kind, slot := BitVec.ofNat 8 about.slot.val, incarnation := about.incarnation, more := false,
          recovered := false, inlined := inlined, wake := wake, coalesced := false, detail := detail,
          value := value, data := data, cls := cls, coalescible := false }
    let low := l.setWidth 16
    let time := t.setWidth 16
    let code : Half := match q with | .a => 0 | .b => 1 | .c => 2 | .d => 3
    let ended := fun (detail : BitVec 2) =>
      List.replicate (ports.count p) (note .requestEnded .urgent low time false false detail)
    let bare := fun (kind : NoticeKind) (wake : Bool) =>
      Handed.one
        { kind := kind, slot := 0xFF, incarnation := 0, more := false, recovered := false, inlined := false,
          wake := wake, coalesced := false, detail := 0, value := g, data := 0, cls := .urgent,
          coalescible := false }
    (Job.stale about q l t).noticesFor filters p =
        (if p = q then [note .stale .urgent low time true false 0]
          else if o.status = true then [note .stale .urgent low time false false 0] else []) ∧
      (Job.answerNow about q l t b0 b1).noticesFor filters p =
        (if p = q then
          [note .answer .urgent low (if o.inlined = true then b0 ++ b1 else time) false o.inlined 0] else []) ∧
      (Job.requestFwd about q l t).noticesFor filters p =
        (if p = q then [note .request .urgent low time true false 0] else []) ∧
      (Job.requestEnd about q l t).noticesFor filters p =
        (if p = q then [note .requestEnded .urgent low time false false 1] else []) ∧
      (Job.appear about q t).noticesFor filters p =
        (if o.status = true then [note .appeared .normal code time false false 0] else []) ∧
      (Job.adopt about q t).noticesFor filters p =
        (if o.status = true then [note .adopted .normal code time false false 0] else []) ∧
      (Job.orphan about l t ports).noticesFor filters p =
        (if o.status = true then [note .orphaned .urgent low time false false 0] else []) ++ ended 2 ∧
      (Job.withdraw about l t ports).noticesFor filters p =
        (if o.status = true then [note .withdrawn .normal low time false false 0] else []) ++ ended 3 ∧
      (Job.mode g ports).noticesFor filters p = (if p ∈ ports then [bare .mode true] else []) ∧
      (Job.votesCleared g ports).noticesFor filters p = (if p ∈ ports then [bare .voteCleared false] else []))

/-- A group job of two members or more: one block of PUBLISHED notices, in open order, of the members whose key the port
subscribes to with PUB, none for the producer; MORE on every one but the last; none coalescible; then the LIMIT notices,
then the ANSWER notices, one by one, field by field (R58, R60). The options of a port for a key are the union over its
enabled filters that agree with the key in every bit of their masks (R50). -/
def Obligations.GroupJobNotices : Prop :=
  (∀ (x y : Published) (more : List Published) (filters : Vector Filter 8) (p : Port),
    let ms := x :: y :: more
    let o := fun (m : Published) => optionsFor filters m.subject.key
    let received := ms.filter fun m => (o m).pub && m.producer != p
    let time := fun (m : Published) => m.commitTime.setWidth 16
    let data := fun (m : Published) => if (o m).inlined = true then m.byte0 ++ m.byte1 else time m
    let note := fun (m : Published) (kind : NoticeKind) (cls : NoticeClass) (more recovered inlined wake : Bool)
        (detail : BitVec 2) (data : Half) =>
      ({ kind := kind, slot := BitVec.ofNat 8 m.subject.slot.val, incarnation := m.subject.incarnation, more := more,
         recovered := recovered, inlined := inlined, wake := wake, coalesced := false, detail := detail,
         value := m.sequence.setWidth 16, data := data, cls := cls, coalescible := false } : Notice)
    (Job.publish ms).noticesFor filters p =
      (if received = [] then []
        else [Handed.block (received.mapIdx fun i m =>
          note m .published .normal (decide (i + 1 < received.length)) m.recovered (o m).inlined false 0 (data m))]) ++
      (ms.filter fun m => m.limit.isSome && (o m).limits).map (fun m =>
        Handed.one (note m .limit .urgent false false false (o m).wake
          (match m.limit with | some .low => 1 | some .high => 2 | some .inside => 3 | none => 0) (time m))) ++
      (ms.filter fun m => m.answered.contains p).map (fun m =>
        Handed.one (note m .answer .urgent false false (o m).inlined false 0 (data m)))) ∧
    (∀ (filters : Vector Filter 8) (key : Key),
      let o := optionsFor filters key
      let given := fun (option : Options → Bool) =>
        ∃ i : Fin 8, filters[i].enabled = true ∧ key &&& filters[i].mask = filters[i].key &&& filters[i].mask ∧
          option filters[i].options = true
      (o.pub = true ↔ given Options.pub) ∧ (o.coalesce = true ↔ given Options.coalesce) ∧
        (o.inlined = true ↔ given Options.inlined) ∧ (o.status = true ↔ given Options.status) ∧
        (o.limits = true ↔ given Options.limits) ∧ (o.wake = true ↔ given Options.wake))

/-- What the NQM decides: nothing while DISCARDING; a block whole against the threshold; a notice by its class; and a
drop counted at the tail, in the newest entry if that is an OVERFLOW notice, else in a new one. In DOZE an admitted or
counted WAKE notice sets wake pending (R69 to R73, R81, R86). On an emptied queue these rules hold, and not the count 1 of
R80 (log 17). -/
def Obligations.AdmissionAndOverflow : Prop :=
  ∀ (dozing held : Bool) (now : Half) (q : Queue),
    let fill := q.entries.length
    let overflow := fun (count : Half) (wake : Bool) =>
      ({ kind := .overflow, slot := 0xFF, incarnation := 0, more := false, recovered := false, inlined := false,
         wake := wake, coalesced := false, detail := 0, value := count, data := now, cls := .urgent,
         coalescible := false } : Notice)
    let counted := fun (k : Nat) (wake : Bool) (q' : Queue) =>
      (q.newestIsOverflow = false → q'.entries = q.entries ++ [overflow (BitVec.ofNat 16 (min k 65535)) wake]) ∧
        (∀ n ∈ q.entries.getLast?, n.kind = .overflow →
          q'.entries = q.entries.dropLast ++
            [{ n with value := BitVec.ofNat 16 (min (n.value.toNat + k) 65535), wake := n.wake || wake }]) ∧
        { q' with entries := q.entries } = { q with wakePending := q.wakePending || (dozing && wake) }
    q.fill = fill ∧ (q.newestIsOverflow = true ↔ ∃ n ∈ q.entries.getLast?, n.kind = .overflow) ∧
      (∀ h : Handed, q.accepting = false → q.decideOne dozing held now h = q) ∧
      (∀ ns : List Notice, q.accepting = true →
        (fill + ns.length ≤ q.threshold →
          q.decideOne dozing held now (.block ns) =
            { q with entries := q.entries ++ ns,
                     wakePending := q.wakePending || (dozing && ns.any fun n => n.wake) }) ∧
          (q.threshold < fill + ns.length →
            counted ns.length false (q.decideOne dozing held now (.block ns)))) ∧
      ∀ n : Notice, q.accepting = true → n.coalescible = false →
        let limit := if n.cls = .normal then q.threshold else q.depth - 1
        (fill < limit →
          q.decideOne dozing held now (.one n) =
            { q with entries := q.entries ++ [n],
                     wakePending := q.wakePending || (dozing && n.wake) }) ∧
          (limit ≤ fill → counted 1 n.wake (q.decideOne dozing held now (.one n)))

/-- A coalescible notice merges into the newest entry about its slot and incarnation, where that entry is a coalescible
PUBLISHED notice and not the head under read: `x` stands between `front` and `back`, and nothing in `back` is about its
record. The entry takes the newer value and data, keeps its place, and nothing else of the queue changes. Without such a
target, and so where no entry is about its slot and incarnation, the notice is decided by its class: appended below the limit, and
at the limit dropped as a notice that is not coalescible is (R69, R70, R74, R75). -/
def Obligations.CoalescingMergesInPlace : Prop :=
  ∀ (dozing held : Bool) (now : Half) (q : Queue) (n : Notice), q.accepting = true → n.coalescible = true →
    let about := fun (y : Notice) => y.slot = n.slot ∧ y.incarnation = n.incarnation
    let limit := if n.cls = .normal then q.threshold else q.depth - 1
    let byClass :=
      (q.entries.length < limit →
        q.decideOne dozing held now (.one n) =
          { q with entries := q.entries ++ [n], wakePending := q.wakePending || (dozing && n.wake) }) ∧
        (limit ≤ q.entries.length →
          q.decideOne dozing held now (.one n) =
            q.decideOne dozing held now (.one { n with coalescible := false }))
    ((∀ y ∈ q.entries, ¬ about y) → byClass) ∧
      ∀ (x : Notice) (front back : List Notice), q.entries = front ++ x :: back → about x →
        (∀ y ∈ back, ¬ about y) →
          (x.kind = .published → x.coalescible = true → (held = false ∨ front ≠ []) →
            q.decideOne dozing held now (.one n) =
              { q with entries := front ++
                  { x with value := n.value, data := n.data, inlined := n.inlined,
                           recovered := x.recovered || n.recovered, coalesced := true } :: back }) ∧
            ((x.kind ≠ .published ∨ x.coalescible = false ∨ held = true ∧ front = []) → byClass)

/-- INTx is active in ACTIVE alone, and there exactly while the urgent, the level or the fetch condition holds; WAKx is
asserted exactly in DOZE with wake pending; neither while RESET is asserted. The INTx pin is low when active, the WAKx pin
high when asserted; the data-out pin is driven only in a transaction with PRSTx and RESET released, with 00H in the address
byte and in a write, and with the fixed byte in a read (R84, R85, R86, R165, R166, R169, R175; that a driven pin has no
stated byte in a transaction that the part ignores is log 10). -/
def Obligations.InterruptAndWakeOutputs : Prop :=
  (∀ (p : Port) (s : State),
    let q := (s.port p).queue
    (s.intActive p = true ↔
      s.resetPin = false ∧ (s.port p).state = .active ∧
        (q.irq.urgent = true ∧ (∃ n ∈ q.entries, n.cls = .urgent) ∨
          q.irq.level = true ∧ q.irq.levelAt ≤ q.entries.length ∨
          q.irq.fetch = true ∧ (s.port p).fetch = .ready)) ∧
      (s.wakAsserted p = true ↔ s.resetPin = false ∧ (s.port p).state = .doze ∧ q.wakePending = true)) ∧
    (∀ (p : Port) (s : State),
      s.intPinHigh p = !s.intActive p ∧ s.wakPinHigh p = s.wakAsserted p ∧
        (s.resetPin = true → s.intPinHigh p = true ∧ s.wakPinHigh p = false)) ∧
    (∀ (p : Port) (s : State),
      ((s.resetPin = true ∨ (s.port p).prst = true ∨ (s.port p).transaction = .idle) →
        s.dataOut p = .highImpedance) ∧
        (s.resetPin = false → (s.port p).prst = false →
          (∀ a b, (s.port p).transaction = .read a b → s.dataOut p = .shifts b.value) ∧
            (∀ a, (s.port p).transaction ∈ [.address, .write a, .discarding] → s.dataOut p = .shifts 0x00) ∧
            ((s.port p).transaction = .ignored → s.dataOut p = .unstated)))

/-! ### Invariants -/

/-- Right after reset the part is sound. -/
def Obligations.ResetIsSound : Prop := Sound State.reset

/-- Every cell stays in exactly one use, and every slot that is not FREE holds depth+1 cells (R7, R10). -/
def Obligations.CellsStayAccounted : Prop :=
  ∀ (s t : State), CellLaw s → step s = .next t → CellLaw t

/-- Pin counts stay the numbers of fetches in flight, and only versions, owed and detached cells are pinned (R7, R8). -/
def Obligations.PinsStayFetches : Prop :=
  ∀ (s t : State), CellLaw s → PinLaw s → step s = .next t → PinLaw t

/-- Version lists stay consecutive, and the slot states stay those of R6 (R6, R11, R38). -/
def Obligations.VersionsStayConsecutive : Prop :=
  ∀ (s t : State), CellLaw s → VersionLaw s → step s = .next t → VersionLaw t

/-- Open lists and open updates keep agreeing (R27, R28). -/
def Obligations.OpenUpdatesStayListed : Prop :=
  ∀ (s t : State), UpdateLaw s → step s = .next t → UpdateLaw t

/-- No step gives two slots that are not FREE the same key (R2). -/
def Obligations.KeysStayDistinct : Prop :=
  ∀ (s t : State), KeyLaw s → step s = .next t → KeyLaw t

/-- No queue holds more than depth_q entries, nor depth_q with a newest entry that is no OVERFLOW notice (R70). -/
def Obligations.QueuesStayInBounds : Prop :=
  ∀ (s t : State), QueueLaw s → step s = .next t → QueueLaw t

/-- The job queue never exceeds 16, the path is held by one that has a transfer, and nobody waits for a free path
(R53, R101). -/
def Obligations.PathStaysGranted : Prop :=
  ∀ (s t : State), PathLaw s → step s = .next t → PathLaw t

/-- The request table keeps its law (R133). -/
def Obligations.RequestTableStaysLawful : Prop :=
  ∀ (s t : State), RequestLaw s → step s = .next t → RequestLaw t

/-- What a port holds in each port state stays so, where open lists and open updates agree (R81, R86, R148, R157). -/
def Obligations.PortStatesStayClean : Prop :=
  ∀ (s t : State), UpdateLaw s → PortLaw s → step s = .next t → PortLaw t

/-- In SETUP the counters stand, every slot is FREE, no request waits and no job is about a slot; in RUN no vote stands
(R104, R105, R109, R160, R162). -/
def Obligations.ModesKeepTheirLaw : Prop :=
  ∀ (s t : State), ModeLaw s → step s = .next t → ModeLaw t

/-- In RUN, until the part is reset, the mode, the settings record and the generation do not change (R160). -/
def Obligations.SettingsStandInRun : Prop :=
  ∀ (i : Instr) (s t : State), s.mode = .run → i.resetsPart = false → exec i s = .next t →
    t.mode = .run ∧ t.tickPeriod = s.tickPeriod ∧ t.answerTimeout = s.answerTimeout ∧
      t.orphanHold = s.orphanHold ∧ t.generation = s.generation ∧
      ∀ p, (t.port p).queue.depth = (s.port p).queue.depth ∧
        (t.port p).queue.threshold = (s.port p).queue.threshold

/-- A version in a list, and a pinned cell, is not written: until the part is reset, no command changes its content, so
a fetch reads exactly what was committed (R8, R94). -/
def Obligations.PinnedAndListedCellsAreNotWritten : Prop :=
  ∀ (i : Instr) (c : CellNo) (s t : State), CellLaw s → PinLaw s → i.resetsPart = false → exec i s = .next t →
    (0 < (s.cell c).pins ∨ ∃ k, ∃ r ∈ s.record k, c ∈ r.versions) → (t.cell c).content = (s.cell c).content

/-- A byte on one port changes no byte another port reads of its window, but for what the part shows to all: of the other
port's own unit, only its vote (a settings write or RUN), and its copy phase, can change (10, "Each port has its own PIU
and its own window"). -/
def Obligations.OnePortsBytesLeaveTheOthersWindow : Prop :=
  ∀ (i : Instr) (p q : Port) (s t : State), i.byteOf = some p → q ≠ p → exec i s = .next t →
    { t.port q with vote := (s.port q).vote, fetch := (s.port q).fetch } = s.port q ∧
      FetchKept (s.port q).fetch (t.port q).fetch
end

