-- ==== Sys2Proof/Laws/State.lean ====
section
/-! SUPPORT. What each named update of the state leaves and sets, field by field, so that no proof unfolds a record
update. A lemma that states a conjunction gives `simp` one rule for each of its parts. -/

namespace Sys2Proof.Machine

/-! ### A port replaced -/

/-- Replacing a port leaves every other part of the state. -/
@[simp] theorem State.setPort_fields (s : State) (p : Port) (u : PortUnit) :
    (s.setPort p u).pending = s.pending ∧ (s.setPort p u).resetPin = s.resetPin ∧ (s.setPort p u).ready = s.ready ∧
      (s.setPort p u).mode = s.mode ∧ (s.setPort p u).tickPeriod = s.tickPeriod ∧
      (s.setPort p u).answerTimeout = s.answerTimeout ∧ (s.setPort p u).orphanHold = s.orphanHold ∧
      (s.setPort p u).generation = s.generation ∧ (s.setPort p u).slots = s.slots ∧ (s.setPort p u).cells = s.cells ∧
      (s.setPort p u).free = s.free ∧ (s.setPort p u).detached = s.detached ∧ (s.setPort p u).jobs = s.jobs ∧
      (s.setPort p u).path = s.path ∧ (s.setPort p u).lastGranted = s.lastGranted ∧
      (s.setPort p u).requests = s.requests ∧ (s.setPort p u).etc = s.etc ∧ (s.setPort p u).prescaler = s.prescaler ∧
      (s.setPort p u).scan = s.scan := by
  cases p <;> exact ⟨rfl, rfl, rfl, rfl, rfl, rfl, rfl, rfl, rfl, rfl, rfl, rfl, rfl, rfl, rfl, rfl, rfl, rfl, rfl⟩

/-- Changing a port leaves every other part of the state. -/
@[simp] theorem State.updatePort_fields (s : State) (p : Port) (f : PortUnit → PortUnit) :
    (s.updatePort p f).pending = s.pending ∧ (s.updatePort p f).resetPin = s.resetPin ∧
      (s.updatePort p f).ready = s.ready ∧ (s.updatePort p f).mode = s.mode ∧
      (s.updatePort p f).tickPeriod = s.tickPeriod ∧ (s.updatePort p f).answerTimeout = s.answerTimeout ∧
      (s.updatePort p f).orphanHold = s.orphanHold ∧ (s.updatePort p f).generation = s.generation ∧
      (s.updatePort p f).slots = s.slots ∧ (s.updatePort p f).cells = s.cells ∧ (s.updatePort p f).free = s.free ∧
      (s.updatePort p f).detached = s.detached ∧ (s.updatePort p f).jobs = s.jobs ∧
      (s.updatePort p f).path = s.path ∧ (s.updatePort p f).lastGranted = s.lastGranted ∧
      (s.updatePort p f).requests = s.requests ∧ (s.updatePort p f).etc = s.etc ∧
      (s.updatePort p f).prescaler = s.prescaler ∧ (s.updatePort p f).scan = s.scan := s.setPort_fields p _

/-- Changing every port leaves every other part of the state. -/
@[simp] theorem State.updatePorts_fields (s : State) (f : Port → PortUnit → PortUnit) :
    (s.updatePorts f).pending = s.pending ∧ (s.updatePorts f).resetPin = s.resetPin ∧
      (s.updatePorts f).ready = s.ready ∧ (s.updatePorts f).mode = s.mode ∧
      (s.updatePorts f).tickPeriod = s.tickPeriod ∧ (s.updatePorts f).answerTimeout = s.answerTimeout ∧
      (s.updatePorts f).orphanHold = s.orphanHold ∧ (s.updatePorts f).generation = s.generation ∧
      (s.updatePorts f).slots = s.slots ∧ (s.updatePorts f).cells = s.cells ∧ (s.updatePorts f).free = s.free ∧
      (s.updatePorts f).detached = s.detached ∧ (s.updatePorts f).jobs = s.jobs ∧ (s.updatePorts f).path = s.path ∧
      (s.updatePorts f).lastGranted = s.lastGranted ∧ (s.updatePorts f).requests = s.requests ∧
      (s.updatePorts f).etc = s.etc ∧ (s.updatePorts f).prescaler = s.prescaler ∧ (s.updatePorts f).scan = s.scan :=
  ⟨rfl, rfl, rfl, rfl, rfl, rfl, rfl, rfl, rfl, rfl, rfl, rfl, rfl, rfl, rfl, rfl, rfl, rfl, rfl⟩

@[simp] theorem State.port_setPort (s : State) (p : Port) (u : PortUnit) : (s.setPort p u).port p = u := by
  cases p <;> rfl

@[simp] theorem State.port_setPort_ne (s : State) {p q : Port} (u : PortUnit) (h : q ≠ p) :
    (s.setPort p u).port q = s.port q := by
  cases p <;> cases q <;> first | rfl | exact absurd rfl h

@[simp] theorem State.port_updatePort (s : State) (p : Port) (f : PortUnit → PortUnit) :
    (s.updatePort p f).port p = f (s.port p) := s.port_setPort p _

@[simp] theorem State.port_updatePort_ne (s : State) {p q : Port} (f : PortUnit → PortUnit) (h : q ≠ p) :
    (s.updatePort p f).port q = s.port q := s.port_setPort_ne _ h

/-- A changed port and the others in one equation. -/
theorem State.port_updatePort_eq (s : State) (p q : Port) (f : PortUnit → PortUnit) :
    (s.updatePort p f).port q = if q = p then f (s.port q) else s.port q := by
  by_cases h : q = p
  · subst h; simp
  · simp [h]

@[simp] theorem State.port_updatePorts (s : State) (f : Port → PortUnit → PortUnit) (p : Port) :
    (s.updatePorts f).port p = f p (s.port p) := by
  cases p <;> rfl

/-- Writing a port's own unit back changes nothing. -/
@[simp] theorem State.setPort_self (s : State) (p : Port) : s.setPort p (s.port p) = s := by
  cases p <;> rfl

@[simp] theorem State.setPort_setPort (s : State) (p : Port) (u v : PortUnit) :
    (s.setPort p u).setPort p v = s.setPort p v := by
  cases p <;> rfl

/-- Two changes of one port are one change. -/
@[simp] theorem State.updatePort_updatePort (s : State) (p : Port) (f g : PortUnit → PortUnit) :
    (s.updatePort p f).updatePort p g = s.updatePort p fun u => g (f u) := by
  cases p <;> rfl

/-- Changes of two ports commute. -/
theorem State.updatePort_comm (s : State) {p q : Port} (f g : PortUnit → PortUnit) (h : q ≠ p) :
    (s.updatePort p f).updatePort q g = (s.updatePort q g).updatePort p f := by
  cases p <;> cases q <;> first | rfl | exact absurd rfl h

/-- Two states agree when their ports and all other parts do. -/
theorem State.ext_ports {s t : State} (hp : ∀ p, s.port p = t.port p)
    (h0 : s.pending = t.pending) (h1 : s.resetPin = t.resetPin) (h2 : s.ready = t.ready)
    (h3 : s.mode = t.mode) (h4 : s.tickPeriod = t.tickPeriod) (h5 : s.answerTimeout = t.answerTimeout)
    (h6 : s.orphanHold = t.orphanHold) (h7 : s.generation = t.generation) (h8 : s.slots = t.slots)
    (h9 : s.cells = t.cells) (h10 : s.free = t.free) (h11 : s.detached = t.detached)
    (h12 : s.jobs = t.jobs) (h13 : s.path = t.path) (h14 : s.lastGranted = t.lastGranted)
    (h15 : s.requests = t.requests) (h16 : s.etc = t.etc) (h17 : s.prescaler = t.prescaler)
    (h18 : s.scan = t.scan) :
    s = t := by
  have a := hp .a
  have b := hp .b
  have c := hp .c
  have d := hp .d
  cases s
  cases t
  simp_all [State.port]

/-! ### A slot, a cell and a request position replaced -/

@[simp] theorem State.setSlot_fields (s : State) (k : SlotNo) (x : Slot) :
    (s.setSlot k x).pending = s.pending ∧ (s.setSlot k x).resetPin = s.resetPin ∧ (s.setSlot k x).ready = s.ready ∧
      (s.setSlot k x).mode = s.mode ∧ (s.setSlot k x).tickPeriod = s.tickPeriod ∧
      (s.setSlot k x).answerTimeout = s.answerTimeout ∧ (s.setSlot k x).orphanHold = s.orphanHold ∧
      (s.setSlot k x).generation = s.generation ∧ (s.setSlot k x).cells = s.cells ∧ (s.setSlot k x).free = s.free ∧
      (s.setSlot k x).detached = s.detached ∧ (s.setSlot k x).jobs = s.jobs ∧ (s.setSlot k x).path = s.path ∧
      (s.setSlot k x).lastGranted = s.lastGranted ∧ (s.setSlot k x).requests = s.requests ∧
      (s.setSlot k x).etc = s.etc ∧ (s.setSlot k x).prescaler = s.prescaler ∧ (s.setSlot k x).scan = s.scan :=
  ⟨rfl, rfl, rfl, rfl, rfl, rfl, rfl, rfl, rfl, rfl, rfl, rfl, rfl, rfl, rfl, rfl, rfl, rfl⟩

@[simp] theorem State.port_setSlot (s : State) (k : SlotNo) (x : Slot) (p : Port) :
    (s.setSlot k x).port p = s.port p := by
  cases p <;> rfl

@[simp] theorem State.cell_setSlot (s : State) (k : SlotNo) (x : Slot) (j : CellNo) :
    (s.setSlot k x).cell j = s.cell j := rfl

@[simp] theorem State.entry_setSlot (s : State) (k : SlotNo) (x : Slot) (j : EntryNo) :
    (s.setSlot k x).entry j = s.entry j := rfl

@[simp] theorem State.setRecord_fields (s : State) (k : SlotNo) (r : Option Record) :
    (s.setRecord k r).pending = s.pending ∧ (s.setRecord k r).resetPin = s.resetPin ∧
      (s.setRecord k r).ready = s.ready ∧ (s.setRecord k r).mode = s.mode ∧
      (s.setRecord k r).tickPeriod = s.tickPeriod ∧ (s.setRecord k r).answerTimeout = s.answerTimeout ∧
      (s.setRecord k r).orphanHold = s.orphanHold ∧ (s.setRecord k r).generation = s.generation ∧
      (s.setRecord k r).cells = s.cells ∧ (s.setRecord k r).free = s.free ∧ (s.setRecord k r).detached = s.detached ∧
      (s.setRecord k r).jobs = s.jobs ∧ (s.setRecord k r).path = s.path ∧
      (s.setRecord k r).lastGranted = s.lastGranted ∧ (s.setRecord k r).requests = s.requests ∧
      (s.setRecord k r).etc = s.etc ∧ (s.setRecord k r).prescaler = s.prescaler ∧ (s.setRecord k r).scan = s.scan :=
  ⟨rfl, rfl, rfl, rfl, rfl, rfl, rfl, rfl, rfl, rfl, rfl, rfl, rfl, rfl, rfl, rfl, rfl, rfl⟩

@[simp] theorem State.port_setRecord (s : State) (k : SlotNo) (r : Option Record) (p : Port) :
    (s.setRecord k r).port p = s.port p := by
  cases p <;> rfl

@[simp] theorem State.cell_setRecord (s : State) (k : SlotNo) (r : Option Record) (j : CellNo) :
    (s.setRecord k r).cell j = s.cell j := rfl

@[simp] theorem State.entry_setRecord (s : State) (k : SlotNo) (r : Option Record) (j : EntryNo) :
    (s.setRecord k r).entry j = s.entry j := rfl

@[simp] theorem State.setCell_fields (s : State) (c : CellNo) (x : Cell) :
    (s.setCell c x).pending = s.pending ∧ (s.setCell c x).resetPin = s.resetPin ∧ (s.setCell c x).ready = s.ready ∧
      (s.setCell c x).mode = s.mode ∧ (s.setCell c x).tickPeriod = s.tickPeriod ∧
      (s.setCell c x).answerTimeout = s.answerTimeout ∧ (s.setCell c x).orphanHold = s.orphanHold ∧
      (s.setCell c x).generation = s.generation ∧ (s.setCell c x).slots = s.slots ∧ (s.setCell c x).free = s.free ∧
      (s.setCell c x).detached = s.detached ∧ (s.setCell c x).jobs = s.jobs ∧ (s.setCell c x).path = s.path ∧
      (s.setCell c x).lastGranted = s.lastGranted ∧ (s.setCell c x).requests = s.requests ∧
      (s.setCell c x).etc = s.etc ∧ (s.setCell c x).prescaler = s.prescaler ∧ (s.setCell c x).scan = s.scan :=
  ⟨rfl, rfl, rfl, rfl, rfl, rfl, rfl, rfl, rfl, rfl, rfl, rfl, rfl, rfl, rfl, rfl, rfl, rfl⟩

@[simp] theorem State.port_setCell (s : State) (c : CellNo) (x : Cell) (p : Port) :
    (s.setCell c x).port p = s.port p := by
  cases p <;> rfl

@[simp] theorem State.slot_setCell (s : State) (c : CellNo) (x : Cell) (j : SlotNo) :
    (s.setCell c x).slot j = s.slot j := rfl

@[simp] theorem State.record_setCell (s : State) (c : CellNo) (x : Cell) (j : SlotNo) :
    (s.setCell c x).record j = s.record j := rfl

@[simp] theorem State.entry_setCell (s : State) (c : CellNo) (x : Cell) (j : EntryNo) :
    (s.setCell c x).entry j = s.entry j := rfl

@[simp] theorem State.setEntry_fields (s : State) (i : EntryNo) (e : Option Entry) :
    (s.setEntry i e).pending = s.pending ∧ (s.setEntry i e).resetPin = s.resetPin ∧
      (s.setEntry i e).ready = s.ready ∧ (s.setEntry i e).mode = s.mode ∧
      (s.setEntry i e).tickPeriod = s.tickPeriod ∧ (s.setEntry i e).answerTimeout = s.answerTimeout ∧
      (s.setEntry i e).orphanHold = s.orphanHold ∧ (s.setEntry i e).generation = s.generation ∧
      (s.setEntry i e).slots = s.slots ∧ (s.setEntry i e).cells = s.cells ∧ (s.setEntry i e).free = s.free ∧
      (s.setEntry i e).detached = s.detached ∧ (s.setEntry i e).jobs = s.jobs ∧ (s.setEntry i e).path = s.path ∧
      (s.setEntry i e).lastGranted = s.lastGranted ∧ (s.setEntry i e).etc = s.etc ∧
      (s.setEntry i e).prescaler = s.prescaler ∧ (s.setEntry i e).scan = s.scan :=
  ⟨rfl, rfl, rfl, rfl, rfl, rfl, rfl, rfl, rfl, rfl, rfl, rfl, rfl, rfl, rfl, rfl, rfl, rfl⟩

@[simp] theorem State.port_setEntry (s : State) (i : EntryNo) (e : Option Entry) (p : Port) :
    (s.setEntry i e).port p = s.port p := by
  cases p <;> rfl

@[simp] theorem State.slot_setEntry (s : State) (i : EntryNo) (e : Option Entry) (j : SlotNo) :
    (s.setEntry i e).slot j = s.slot j := rfl

@[simp] theorem State.record_setEntry (s : State) (i : EntryNo) (e : Option Entry) (j : SlotNo) :
    (s.setEntry i e).record j = s.record j := rfl

@[simp] theorem State.cell_setEntry (s : State) (i : EntryNo) (e : Option Entry) (j : CellNo) :
    (s.setEntry i e).cell j = s.cell j := rfl

@[simp] theorem State.slot_setSlot (s : State) (k : SlotNo) (x : Slot) : (s.setSlot k x).slot k = x := by
  simp [State.slot, State.setSlot]

@[simp] theorem State.slot_setSlot_ne (s : State) {k j : SlotNo} (x : Slot) (h : j ≠ k) :
    (s.setSlot k x).slot j = s.slot j := by
  have h' : k.val ≠ j.val := fun e => h (Fin.ext e.symm)
  simp [State.slot, State.setSlot, h']

@[simp] theorem State.record_setSlot (s : State) (k : SlotNo) (x : Slot) :
    (s.setSlot k x).record k = x.record := by
  simp [State.record]

@[simp] theorem State.record_setSlot_ne (s : State) {k j : SlotNo} (x : Slot) (h : j ≠ k) :
    (s.setSlot k x).record j = s.record j := by
  simp [State.record, h]

/-- The record is replaced and the incarnation stays (R4). -/
@[simp] theorem State.slot_setRecord (s : State) (k : SlotNo) (r : Option Record) :
    (s.setRecord k r).slot k = { s.slot k with record := r } := by
  simp [State.setRecord]

@[simp] theorem State.slot_setRecord_ne (s : State) {k j : SlotNo} (r : Option Record) (h : j ≠ k) :
    (s.setRecord k r).slot j = s.slot j := by
  simp [State.setRecord, h]

@[simp] theorem State.incarnation_setRecord (s : State) (k j : SlotNo) (r : Option Record) :
    ((s.setRecord k r).slot j).incarnation = (s.slot j).incarnation := by
  by_cases h : j = k
  · subst h; simp
  · simp [h]

@[simp] theorem State.record_setRecord (s : State) (k : SlotNo) (r : Option Record) :
    (s.setRecord k r).record k = r := by
  simp [State.record]

@[simp] theorem State.record_setRecord_ne (s : State) {k j : SlotNo} (r : Option Record) (h : j ≠ k) :
    (s.setRecord k r).record j = s.record j := by
  simp [State.record, h]

/-- A replaced record and the others in one equation. -/
theorem State.record_setRecord_eq (s : State) (k j : SlotNo) (r : Option Record) :
    (s.setRecord k r).record j = if j = k then r else s.record j := by
  by_cases h : j = k
  · subst h; simp
  · simp [h]

@[simp] theorem State.cell_setCell (s : State) (c : CellNo) (x : Cell) : (s.setCell c x).cell c = x := by
  simp [State.cell, State.setCell]

@[simp] theorem State.cell_setCell_ne (s : State) {c d : CellNo} (x : Cell) (h : d ≠ c) :
    (s.setCell c x).cell d = s.cell d := by
  have h' : c.val ≠ d.val := fun e => h (Fin.ext e.symm)
  simp [State.cell, State.setCell, h']

/-- A replaced cell and the others in one equation. -/
theorem State.cell_setCell_eq (s : State) (c d : CellNo) (x : Cell) :
    (s.setCell c x).cell d = if d = c then x else s.cell d := by
  by_cases h : d = c
  · subst h; simp
  · simp [h]

@[simp] theorem State.entry_setEntry (s : State) (i : EntryNo) (e : Option Entry) :
    (s.setEntry i e).entry i = e := by
  simp [State.entry, State.setEntry]

@[simp] theorem State.entry_setEntry_ne (s : State) {i j : EntryNo} (e : Option Entry) (h : j ≠ i) :
    (s.setEntry i e).entry j = s.entry j := by
  have h' : i.val ≠ j.val := fun x => h (Fin.ext x.symm)
  simp [State.entry, State.setEntry, h']

/-- A replaced entry and the others in one equation. -/
theorem State.entry_setEntry_eq (s : State) (i j : EntryNo) (e : Option Entry) :
    (s.setEntry i e).entry j = if j = i then e else s.entry j := by
  by_cases h : j = i
  · subst h; simp
  · simp [h]

/-! ### Ports, slots, cells and positions under changes of the rest -/

@[simp] theorem State.slot_setPort (s : State) (p : Port) (u : PortUnit) (j : SlotNo) :
    (s.setPort p u).slot j = s.slot j := by
  cases p <;> rfl

@[simp] theorem State.record_setPort (s : State) (p : Port) (u : PortUnit) (j : SlotNo) :
    (s.setPort p u).record j = s.record j := by
  cases p <;> rfl

@[simp] theorem State.cell_setPort (s : State) (p : Port) (u : PortUnit) (j : CellNo) :
    (s.setPort p u).cell j = s.cell j := by
  cases p <;> rfl

@[simp] theorem State.entry_setPort (s : State) (p : Port) (u : PortUnit) (j : EntryNo) :
    (s.setPort p u).entry j = s.entry j := by
  cases p <;> rfl

@[simp] theorem State.slot_updatePort (s : State) (p : Port) (f : PortUnit → PortUnit) (j : SlotNo) :
    (s.updatePort p f).slot j = s.slot j := by
  cases p <;> rfl

@[simp] theorem State.record_updatePort (s : State) (p : Port) (f : PortUnit → PortUnit) (j : SlotNo) :
    (s.updatePort p f).record j = s.record j := by
  cases p <;> rfl

@[simp] theorem State.cell_updatePort (s : State) (p : Port) (f : PortUnit → PortUnit) (j : CellNo) :
    (s.updatePort p f).cell j = s.cell j := by
  cases p <;> rfl

@[simp] theorem State.entry_updatePort (s : State) (p : Port) (f : PortUnit → PortUnit) (j : EntryNo) :
    (s.updatePort p f).entry j = s.entry j := by
  cases p <;> rfl

@[simp] theorem State.slot_updatePorts (s : State) (f : Port → PortUnit → PortUnit) (j : SlotNo) :
    (s.updatePorts f).slot j = s.slot j := rfl

@[simp] theorem State.record_updatePorts (s : State) (f : Port → PortUnit → PortUnit) (j : SlotNo) :
    (s.updatePorts f).record j = s.record j := rfl

@[simp] theorem State.cell_updatePorts (s : State) (f : Port → PortUnit → PortUnit) (j : CellNo) :
    (s.updatePorts f).cell j = s.cell j := rfl

@[simp] theorem State.entry_updatePorts (s : State) (f : Port → PortUnit → PortUnit) (j : EntryNo) :
    (s.updatePorts f).entry j = s.entry j := rfl

/-- A state with the same ports reads the same at every port. -/
@[simp] theorem State.port_mk (s : State) (j : Port) (x0 : List Instr) (x1 x2 : Bool) (x3 : Mode) (x4 : TickPeriod)
    (x5 : Half) (x6 : Time) (x7 : Half) (x12 : Vector Slot 64) (x13 : Vector Cell 384) (x14 x15 : List CellNo) (x16
    : List Job) (x17 : Option Requester) (x18 : Requester) (x19 : Vector (Option Entry) 16) (x20 : Time) (x21 : Nat)
    (x22 : Fin 80) : State.port ⟨x0, x1, x2, x3, x4, x5, x6, x7, s.portA, s.portB, s.portC, s.portD, x12, x13, x14,
    x15, x16, x17, x18, x19, x20, x21, x22⟩ j = s.port j := by
  cases j <;> rfl

/-- A state with the same slots reads the same at every slot. -/
@[simp] theorem State.slot_mk (s : State) (j : SlotNo) (x0 : List Instr) (x1 x2 : Bool) (x3 : Mode) (x4 :
    TickPeriod) (x5 : Half) (x6 : Time) (x7 : Half) (x8 x9 x10 x11 : PortUnit) (x13 : Vector Cell 384) (x14 x15 :
    List CellNo) (x16 : List Job) (x17 : Option Requester) (x18 : Requester) (x19 : Vector (Option Entry) 16) (x20 :
    Time) (x21 : Nat) (x22 : Fin 80) : State.slot ⟨x0, x1, x2, x3, x4, x5, x6, x7, x8, x9, x10, x11, s.slots, x13,
    x14, x15, x16, x17, x18, x19, x20, x21, x22⟩ j = s.slot j := rfl

/-- A state with the same slots has the same records. -/
@[simp] theorem State.record_mk (s : State) (j : SlotNo) (x0 : List Instr) (x1 x2 : Bool) (x3 : Mode) (x4 :
    TickPeriod) (x5 : Half) (x6 : Time) (x7 : Half) (x8 x9 x10 x11 : PortUnit) (x13 : Vector Cell 384) (x14 x15 :
    List CellNo) (x16 : List Job) (x17 : Option Requester) (x18 : Requester) (x19 : Vector (Option Entry) 16) (x20 :
    Time) (x21 : Nat) (x22 : Fin 80) : State.record ⟨x0, x1, x2, x3, x4, x5, x6, x7, x8, x9, x10, x11, s.slots, x13,
    x14, x15, x16, x17, x18, x19, x20, x21, x22⟩ j = s.record j := rfl

/-- A state with the same cells reads the same at every cell. -/
@[simp] theorem State.cell_mk (s : State) (j : CellNo) (x0 : List Instr) (x1 x2 : Bool) (x3 : Mode) (x4 :
    TickPeriod) (x5 : Half) (x6 : Time) (x7 : Half) (x8 x9 x10 x11 : PortUnit) (x12 : Vector Slot 64) (x14 x15 :
    List CellNo) (x16 : List Job) (x17 : Option Requester) (x18 : Requester) (x19 : Vector (Option Entry) 16) (x20 :
    Time) (x21 : Nat) (x22 : Fin 80) : State.cell ⟨x0, x1, x2, x3, x4, x5, x6, x7, x8, x9, x10, x11, x12, s.cells,
    x14, x15, x16, x17, x18, x19, x20, x21, x22⟩ j = s.cell j := rfl

/-- A state with the same request table reads the same at every position. -/
@[simp] theorem State.entry_mk (s : State) (j : EntryNo) (x0 : List Instr) (x1 x2 : Bool) (x3 : Mode) (x4 :
    TickPeriod) (x5 : Half) (x6 : Time) (x7 : Half) (x8 x9 x10 x11 : PortUnit) (x12 : Vector Slot 64) (x13 : Vector
    Cell 384) (x14 x15 : List CellNo) (x16 : List Job) (x17 : Option Requester) (x18 : Requester) (x20 : Time) (x21
    : Nat) (x22 : Fin 80) : State.entry ⟨x0, x1, x2, x3, x4, x5, x6, x7, x8, x9, x10, x11, x12, x13, x14, x15, x16,
    x17, x18, s.requests, x20, x21, x22⟩ j = s.entry j := rfl

/-! ### Membership in the lists of all -/

@[simp] theorem mem_allPorts (p : Port) : p ∈ allPorts := by
  cases p <;> decide

@[simp] theorem mem_allSlots (k : SlotNo) : k ∈ allSlots := List.mem_finRange k

@[simp] theorem mem_allEntries (i : EntryNo) : i ∈ allEntries := List.mem_finRange i

end Sys2Proof.Machine
end

