-- ==== Sys2Proof/Laws/Ops.lean ====
section
/-! SUPPORT. What each shared operation can do, said once. `<operation>_fields` names the parts of the state that the
operation leaves (`simp` gets one rule for each); the lemmas beside it say what becomes of the rest. -/

namespace Sys2Proof.Machine

/-! ### Entries removed (R133) -/

@[simp] theorem State.removeEntries_fields (s : State) (f : Entry → Bool) :
    (s.removeEntries f).pending = s.pending ∧ (s.removeEntries f).resetPin = s.resetPin ∧
      (s.removeEntries f).ready = s.ready ∧ (s.removeEntries f).mode = s.mode ∧
      (s.removeEntries f).tickPeriod = s.tickPeriod ∧ (s.removeEntries f).answerTimeout = s.answerTimeout ∧
      (s.removeEntries f).orphanHold = s.orphanHold ∧ (s.removeEntries f).generation = s.generation ∧
      (s.removeEntries f).slots = s.slots ∧ (s.removeEntries f).cells = s.cells ∧ (s.removeEntries f).free = s.free ∧
      (s.removeEntries f).detached = s.detached ∧ (s.removeEntries f).jobs = s.jobs ∧
      (s.removeEntries f).path = s.path ∧ (s.removeEntries f).lastGranted = s.lastGranted ∧
      (s.removeEntries f).etc = s.etc ∧ (s.removeEntries f).prescaler = s.prescaler ∧
      (s.removeEntries f).scan = s.scan := by
  simp [State.removeEntries]

/-- What stands at a position after entries were removed. -/
@[simp] theorem State.entry_removeEntries (s : State) (f : Entry → Bool) (i : EntryNo) :
    (s.removeEntries f).entry i = (s.entry i).filter fun e => !f e := by
  simp only [State.entry, State.removeEntries, Fin.getElem_fin, Vector.getElem_ofFn]
  cases h : s.requests[i.val] with
  | none => simp
  | some e => by_cases hf : f e <;> simp [hf, Option.filter]

@[simp] theorem State.port_removeEntries (s : State) (f : Entry → Bool) (q : Port) :
    (s.removeEntries f).port q = s.port q := by
  cases q <;> rfl

@[simp] theorem State.slot_removeEntries (s : State) (f : Entry → Bool) (j : SlotNo) :
    (s.removeEntries f).slot j = s.slot j := by
  simp [State.slot]

@[simp] theorem State.record_removeEntries (s : State) (f : Entry → Bool) (j : SlotNo) :
    (s.removeEntries f).record j = s.record j := by
  simp [State.record, State.slot]

@[simp] theorem State.cell_removeEntries (s : State) (f : Entry → Bool) (j : CellNo) :
    (s.removeEntries f).cell j = s.cell j := by
  simp [State.cell]

@[simp] theorem State.endEntriesOn_fields (s : State) (k : SlotNo) :
    (s.endEntriesOn k).pending = s.pending ∧ (s.endEntriesOn k).resetPin = s.resetPin ∧
      (s.endEntriesOn k).ready = s.ready ∧ (s.endEntriesOn k).mode = s.mode ∧
      (s.endEntriesOn k).tickPeriod = s.tickPeriod ∧ (s.endEntriesOn k).answerTimeout = s.answerTimeout ∧
      (s.endEntriesOn k).orphanHold = s.orphanHold ∧ (s.endEntriesOn k).generation = s.generation ∧
      (s.endEntriesOn k).slots = s.slots ∧ (s.endEntriesOn k).cells = s.cells ∧ (s.endEntriesOn k).free = s.free ∧
      (s.endEntriesOn k).detached = s.detached ∧ (s.endEntriesOn k).jobs = s.jobs ∧
      (s.endEntriesOn k).path = s.path ∧ (s.endEntriesOn k).lastGranted = s.lastGranted ∧
      (s.endEntriesOn k).etc = s.etc ∧ (s.endEntriesOn k).prescaler = s.prescaler ∧ (s.endEntriesOn k).scan = s.scan := by
  simp [State.endEntriesOn]

@[simp] theorem State.entry_endEntriesOn (s : State) (k : SlotNo) (i : EntryNo) :
    (s.endEntriesOn k).entry i = (s.entry i).filter fun e => !e.waitsOn k (s.slot k).incarnation := by
  simp [State.endEntriesOn]

@[simp] theorem State.port_endEntriesOn (s : State) (k : SlotNo) (q : Port) :
    (s.endEntriesOn k).port q = s.port q := by
  simp [State.endEntriesOn]

@[simp] theorem State.slot_endEntriesOn (s : State) (k : SlotNo) (j : SlotNo) :
    (s.endEntriesOn k).slot j = s.slot j := by
  simp [State.slot]

@[simp] theorem State.record_endEntriesOn (s : State) (k : SlotNo) (j : SlotNo) :
    (s.endEntriesOn k).record j = s.record j := by
  simp [State.record, State.slot]

@[simp] theorem State.cell_endEntriesOn (s : State) (k : SlotNo) (j : CellNo) :
    (s.endEntriesOn k).cell j = s.cell j := by
  simp [State.cell]

/-! ### The grant of the transfer path (R101) -/

@[simp] theorem State.grantTo_fields (s : State) (r : Requester) :
    (s.grantTo r).pending = s.pending ∧ (s.grantTo r).resetPin = s.resetPin ∧ (s.grantTo r).ready = s.ready ∧
      (s.grantTo r).mode = s.mode ∧ (s.grantTo r).tickPeriod = s.tickPeriod ∧
      (s.grantTo r).answerTimeout = s.answerTimeout ∧ (s.grantTo r).orphanHold = s.orphanHold ∧
      (s.grantTo r).generation = s.generation ∧ (s.grantTo r).slots = s.slots ∧ (s.grantTo r).cells = s.cells ∧
      (s.grantTo r).free = s.free ∧ (s.grantTo r).detached = s.detached ∧ (s.grantTo r).jobs = s.jobs ∧
      (s.grantTo r).requests = s.requests ∧ (s.grantTo r).etc = s.etc ∧ (s.grantTo r).prescaler = s.prescaler ∧
      (s.grantTo r).scan = s.scan := by
  cases r <;> simp [State.grantTo]

@[simp] theorem State.grantTo_path (s : State) (r : Requester) :
    (s.grantTo r).path = some r ∧ (s.grantTo r).lastGranted = r := by
  cases r <;> simp [State.grantTo]

/-- A grant moves the copy phase of its port, and nothing else of any port. -/
theorem State.port_grantTo (s : State) (r : Requester) (q : Port) :
    (s.grantTo r).port q =
      { s.port q with fetch := if r = .port q then (s.port q).fetch.granted else (s.port q).fetch } := by
  cases r with
  | du => simp [State.grantTo]
  | port p =>
    by_cases h : q = p
    · subst h; simp [State.grantTo]
    · have h' : ¬ p = q := fun e => h e.symm
      simp [State.grantTo, h, h']

/-- Nothing is granted while the path is held. -/
theorem State.grant_of_held {s : State} {r : Requester} (h : s.path = some r) : s.grant = s := by
  simp [State.grant, h]

/-- A free path goes to the first that waits in the cyclic order. -/
theorem State.grant_of_free {s : State} (h : s.path = none) :
    s.grant = match s.lastGranted.orderAfter.find? s.waits with
      | some r => s.grantTo r
      | none => s := by
  unfold State.grant
  (rw [h]) <;> rfl

/-- Everything a grant can do: nothing, or the grant to a requester that waits for a free path. -/
theorem State.grant_cases (s : State) :
    s.grant = s ∨ ∃ r, s.path = none ∧ s.waits r = true ∧ s.grant = s.grantTo r := by
  cases h : s.path with
  | some r => exact .inl (State.grant_of_held h)
  | none =>
    rw [State.grant_of_free h]
    cases hf : s.lastGranted.orderAfter.find? s.waits with
    | none => exact .inl rfl
    | some r => exact .inr ⟨r, rfl, List.find?_some hf, rfl⟩

/-- After a grant nobody waits for a free path. -/
theorem State.grant_path_none {s : State} (h : s.grant.path = none) (r : Requester) : s.waits r = false := by
  cases hp : s.path with
  | some x => simp [State.grant_of_held hp, hp] at h
  | none =>
    rw [State.grant_of_free hp] at h
    cases hf : s.lastGranted.orderAfter.find? s.waits with
    | some x => simp [hf] at h
    | none =>
      have hr : r ∈ s.lastGranted.orderAfter := by
        rcases s.lastGranted with _ | _ | _ | _ | _ <;> rcases r with _ | p <;>
          first | (cases p <;> simp [Requester.orderAfter]) | simp [Requester.orderAfter]
      simpa using List.find?_eq_none.mp hf r hr

@[simp] theorem State.grant_fields (s : State) :
    s.grant.pending = s.pending ∧ s.grant.resetPin = s.resetPin ∧ s.grant.ready = s.ready ∧
      s.grant.mode = s.mode ∧ s.grant.tickPeriod = s.tickPeriod ∧ s.grant.answerTimeout = s.answerTimeout ∧
      s.grant.orphanHold = s.orphanHold ∧ s.grant.generation = s.generation ∧ s.grant.slots = s.slots ∧
      s.grant.cells = s.cells ∧ s.grant.free = s.free ∧ s.grant.detached = s.detached ∧
      s.grant.jobs = s.jobs ∧ s.grant.requests = s.requests ∧ s.grant.etc = s.etc ∧
      s.grant.prescaler = s.prescaler ∧ s.grant.scan = s.scan := by
  rcases s.grant_cases with h | ⟨r, -, -, h⟩ <;> rw [h] <;> simp

@[simp] theorem State.slot_grant (s : State) (j : SlotNo) : s.grant.slot j = s.slot j := by
  simp [State.slot]

@[simp] theorem State.record_grant (s : State) (j : SlotNo) : s.grant.record j = s.record j := by
  simp [State.record, State.slot]

@[simp] theorem State.cell_grant (s : State) (j : CellNo) : s.grant.cell j = s.cell j := by
  simp [State.cell]

@[simp] theorem State.entry_grant (s : State) (j : EntryNo) : s.grant.entry j = s.entry j := by
  simp [State.entry]

/-- A grant changes nothing of a port but the copy phase of its fetch. -/
@[simp] theorem State.grant_portFields (s : State) (q : Port) :
    (s.grant.port q).state = (s.port q).state ∧ (s.grant.port q).vote = (s.port q).vote ∧
      (s.grant.port q).args = (s.port q).args ∧ (s.grant.port q).result = (s.port q).result ∧
      (s.grant.port q).rdata = (s.port q).rdata ∧ (s.grant.port q).openList = (s.port q).openList ∧
      (s.grant.port q).stagingPointer = (s.port q).stagingPointer ∧
      (s.grant.port q).writeDenied = (s.port q).writeDenied ∧
      (s.grant.port q).groupCounter = (s.port q).groupCounter ∧
      (s.grant.port q).fetchedSlot = (s.port q).fetchedSlot ∧ (s.grant.port q).header = (s.port q).header ∧
      (s.grant.port q).payload = (s.port q).payload ∧ (s.grant.port q).valid = (s.port q).valid ∧
      (s.grant.port q).underrun = (s.port q).underrun ∧ (s.grant.port q).discarded = (s.port q).discarded ∧
      (s.grant.port q).timeLatch = (s.port q).timeLatch ∧ (s.grant.port q).genLatch = (s.port q).genLatch ∧
      (s.grant.port q).filters = (s.port q).filters ∧ (s.grant.port q).queue = (s.port q).queue ∧
      (s.grant.port q).prst = (s.port q).prst ∧ (s.grant.port q).transaction = (s.port q).transaction := by
  rcases s.grant_cases with h | ⟨r, -, -, h⟩ <;> rw [h] <;> simp [State.port_grantTo]

/-- What a grant does to a port: its copy phase turns to COPYING, or nothing. -/
theorem State.port_grant (s : State) (q : Port) :
    s.grant.port q = s.port q ∨ s.grant.port q = { s.port q with fetch := (s.port q).fetch.granted } := by
  rcases s.grant_cases with h | ⟨r, -, -, h⟩
  · exact .inl (by rw [h])
  · rw [h, State.port_grantTo]
    by_cases hr : r = .port q
    · exact .inr (by simp [hr])
    · exact .inl (by simp [hr])

/-- A granted fetch pins the same cell. -/
@[simp] theorem FetchState.granted_granted (f : FetchState) : f.granted.granted = f.granted := by
  cases f <;> rfl

/-! ### A job admitted (R53) -/

@[simp] theorem State.admitJob_fields (s : State) (x : Job) :
    (s.admitJob x).pending = s.pending ∧ (s.admitJob x).resetPin = s.resetPin ∧ (s.admitJob x).ready = s.ready ∧
      (s.admitJob x).mode = s.mode ∧ (s.admitJob x).tickPeriod = s.tickPeriod ∧
      (s.admitJob x).answerTimeout = s.answerTimeout ∧ (s.admitJob x).orphanHold = s.orphanHold ∧
      (s.admitJob x).generation = s.generation ∧ (s.admitJob x).slots = s.slots ∧ (s.admitJob x).cells = s.cells ∧
      (s.admitJob x).free = s.free ∧ (s.admitJob x).detached = s.detached ∧ (s.admitJob x).requests = s.requests ∧
      (s.admitJob x).etc = s.etc ∧ (s.admitJob x).prescaler = s.prescaler ∧ (s.admitJob x).scan = s.scan := by
  simp [State.admitJob]

@[simp] theorem State.admitJob_jobs (s : State) (x : Job) : (s.admitJob x).jobs = s.jobs ++ [x] := by
  simp [State.admitJob]

@[simp] theorem State.slot_admitJob (s : State) (x : Job) (j : SlotNo) : (s.admitJob x).slot j = s.slot j := by
  simp [State.slot]

@[simp] theorem State.record_admitJob (s : State) (x : Job) (j : SlotNo) : (s.admitJob x).record j = s.record j := by
  simp [State.record, State.slot]

@[simp] theorem State.cell_admitJob (s : State) (x : Job) (j : CellNo) : (s.admitJob x).cell j = s.cell j := by
  simp [State.cell]

@[simp] theorem State.entry_admitJob (s : State) (x : Job) (j : EntryNo) : (s.admitJob x).entry j = s.entry j := by
  simp [State.entry]

@[simp] theorem State.admitJob_portFields (s : State) (x : Job) (q : Port) :
    ((s.admitJob x).port q).state = (s.port q).state ∧ ((s.admitJob x).port q).vote = (s.port q).vote ∧
      ((s.admitJob x).port q).args = (s.port q).args ∧ ((s.admitJob x).port q).result = (s.port q).result ∧
      ((s.admitJob x).port q).rdata = (s.port q).rdata ∧ ((s.admitJob x).port q).openList = (s.port q).openList ∧
      ((s.admitJob x).port q).stagingPointer = (s.port q).stagingPointer ∧
      ((s.admitJob x).port q).writeDenied = (s.port q).writeDenied ∧
      ((s.admitJob x).port q).groupCounter = (s.port q).groupCounter ∧
      ((s.admitJob x).port q).fetchedSlot = (s.port q).fetchedSlot ∧
      ((s.admitJob x).port q).header = (s.port q).header ∧ ((s.admitJob x).port q).payload = (s.port q).payload ∧
      ((s.admitJob x).port q).valid = (s.port q).valid ∧ ((s.admitJob x).port q).underrun = (s.port q).underrun ∧
      ((s.admitJob x).port q).discarded = (s.port q).discarded ∧
      ((s.admitJob x).port q).timeLatch = (s.port q).timeLatch ∧
      ((s.admitJob x).port q).genLatch = (s.port q).genLatch ∧ ((s.admitJob x).port q).filters = (s.port q).filters ∧
      ((s.admitJob x).port q).queue = (s.port q).queue ∧ ((s.admitJob x).port q).prst = (s.port q).prst ∧
      ((s.admitJob x).port q).transaction = (s.port q).transaction := by
  simp [State.admitJob]

/-- What the admission of a job does to a port: its copy phase turns to COPYING, or nothing. -/
theorem State.port_admitJob (s : State) (x : Job) (q : Port) :
    (s.admitJob x).port q = s.port q ∨
      (s.admitJob x).port q = { s.port q with fetch := (s.port q).fetch.granted } := by
  simpa [State.admitJob] using State.port_grant { s with jobs := s.jobs ++ [x] } q

/-- The queue of jobs keeps its bound when a job is admitted into room (R53, R54). -/
theorem State.admitJob_length {s : State} (x : Job) (h : s.hasRoom = true) : (s.admitJob x).jobs.length ≤ 16 := by
  have h' : s.jobs.length < 16 := of_decide_eq_true h
  simp
  omega

/-! ### Pins (R8, R9) -/

@[simp] theorem State.pinCell_fields (s : State) (c : CellNo) :
    (s.pinCell c).pending = s.pending ∧ (s.pinCell c).resetPin = s.resetPin ∧ (s.pinCell c).ready = s.ready ∧
      (s.pinCell c).mode = s.mode ∧ (s.pinCell c).tickPeriod = s.tickPeriod ∧
      (s.pinCell c).answerTimeout = s.answerTimeout ∧ (s.pinCell c).orphanHold = s.orphanHold ∧
      (s.pinCell c).generation = s.generation ∧ (s.pinCell c).slots = s.slots ∧ (s.pinCell c).free = s.free ∧
      (s.pinCell c).detached = s.detached ∧ (s.pinCell c).jobs = s.jobs ∧ (s.pinCell c).path = s.path ∧
      (s.pinCell c).lastGranted = s.lastGranted ∧ (s.pinCell c).requests = s.requests ∧ (s.pinCell c).etc = s.etc ∧
      (s.pinCell c).prescaler = s.prescaler ∧ (s.pinCell c).scan = s.scan := by
  simp [State.pinCell]

@[simp] theorem State.port_pinCell (s : State) (c : CellNo) (q : Port) : (s.pinCell c).port q = s.port q := by
  simp [State.pinCell]

@[simp] theorem State.cell_pinCell (s : State) (c d : CellNo) :
    (s.pinCell c).cell d = { s.cell d with pins := if d = c then (s.cell d).pins + 1 else (s.cell d).pins } := by
  by_cases h : d = c
  · subst h; simp [State.pinCell]
  · simp [State.pinCell, h]

@[simp] theorem State.slot_pinCell (s : State) (c : CellNo) (j : SlotNo) : (s.pinCell c).slot j = s.slot j := by
  simp [State.slot]

@[simp] theorem State.record_pinCell (s : State) (c : CellNo) (j : SlotNo) : (s.pinCell c).record j = s.record j := by
  simp [State.record, State.slot]

@[simp] theorem State.entry_pinCell (s : State) (c : CellNo) (j : EntryNo) : (s.pinCell c).entry j = s.entry j := by
  simp [State.entry]

@[simp] theorem State.routeUnpinned_fields (s : State) (c : CellNo) :
    (s.routeUnpinned c).pending = s.pending ∧ (s.routeUnpinned c).resetPin = s.resetPin ∧
      (s.routeUnpinned c).ready = s.ready ∧ (s.routeUnpinned c).mode = s.mode ∧
      (s.routeUnpinned c).tickPeriod = s.tickPeriod ∧ (s.routeUnpinned c).answerTimeout = s.answerTimeout ∧
      (s.routeUnpinned c).orphanHold = s.orphanHold ∧ (s.routeUnpinned c).generation = s.generation ∧
      (s.routeUnpinned c).cells = s.cells ∧ (s.routeUnpinned c).jobs = s.jobs ∧ (s.routeUnpinned c).path = s.path ∧
      (s.routeUnpinned c).lastGranted = s.lastGranted ∧ (s.routeUnpinned c).requests = s.requests ∧
      (s.routeUnpinned c).etc = s.etc ∧ (s.routeUnpinned c).prescaler = s.prescaler ∧
      (s.routeUnpinned c).scan = s.scan := by
  unfold State.routeUnpinned
  (repeat' split) <;> simp

@[simp] theorem State.port_routeUnpinned (s : State) (c : CellNo) (q : Port) :
    (s.routeUnpinned c).port q = s.port q := by
  unfold State.routeUnpinned
  (repeat' split) <;> simp

@[simp] theorem State.cell_routeUnpinned (s : State) (c : CellNo) (j : CellNo) :
    (s.routeUnpinned c).cell j = s.cell j := by
  simp [State.cell]

@[simp] theorem State.entry_routeUnpinned (s : State) (c : CellNo) (j : EntryNo) :
    (s.routeUnpinned c).entry j = s.entry j := by
  simp [State.entry]

@[simp] theorem State.incarnation_routeUnpinned (s : State) (c : CellNo) (k : SlotNo) :
    ((s.routeUnpinned c).slot k).incarnation = (s.slot k).incarnation := by
  unfold State.routeUnpinned
  (repeat' split) <;> simp

/-- A routed cell changes a record only where it was owed: it becomes the staging cell (R9). -/
theorem State.record_routeUnpinned (s : State) (c : CellNo) (k : SlotNo) :
    (s.routeUnpinned c).record k = s.record k ∨
      ∃ r, s.record k = some r ∧ r.next = .owed c ∧
        (s.routeUnpinned c).record k = some { r with next := .staging c none } := by
  unfold State.routeUnpinned
  split
  · exact .inl (by simp)
  · split
    · exact .inl rfl
    · rename_i j hj
      split
      · exact .inl rfl
      · rename_i r hr
        by_cases h : k = j
        · subst h
          refine .inr ⟨r, hr, ?_, by simp⟩
          have := List.find?_some hj
          simpa [hr] using this
        · exact .inl (by simp [h])

/-- A routed detached cell returns to the pool (R9). -/
theorem State.routeUnpinned_detached {s : State} {c : CellNo} (h : c ∈ s.detached) :
    s.routeUnpinned c = { s with detached := s.detached.erase c, free := s.free ++ [c] } := by
  simp [State.routeUnpinned, h]

/-- A cell that is not detached leaves pool and detached cells as they are (R9). -/
theorem State.routeUnpinned_listed {s : State} {c : CellNo} (h : c ∉ s.detached) :
    (s.routeUnpinned c).free = s.free ∧ (s.routeUnpinned c).detached = s.detached := by
  simp only [State.routeUnpinned, List.contains_eq_mem, h, decide_false, Bool.false_eq_true, if_false]
  (repeat' split) <;> simp

@[simp] theorem State.unpinCell_fields (s : State) (c : CellNo) :
    (s.unpinCell c).pending = s.pending ∧ (s.unpinCell c).resetPin = s.resetPin ∧ (s.unpinCell c).ready = s.ready ∧
      (s.unpinCell c).mode = s.mode ∧ (s.unpinCell c).tickPeriod = s.tickPeriod ∧
      (s.unpinCell c).answerTimeout = s.answerTimeout ∧ (s.unpinCell c).orphanHold = s.orphanHold ∧
      (s.unpinCell c).generation = s.generation ∧ (s.unpinCell c).jobs = s.jobs ∧ (s.unpinCell c).path = s.path ∧
      (s.unpinCell c).lastGranted = s.lastGranted ∧ (s.unpinCell c).requests = s.requests ∧
      (s.unpinCell c).etc = s.etc ∧ (s.unpinCell c).prescaler = s.prescaler ∧ (s.unpinCell c).scan = s.scan := by
  unfold State.unpinCell
  split <;> simp

@[simp] theorem State.port_unpinCell (s : State) (c : CellNo) (q : Port) : (s.unpinCell c).port q = s.port q := by
  unfold State.unpinCell
  split <;> simp

@[simp] theorem State.cell_unpinCell (s : State) (c d : CellNo) :
    (s.unpinCell c).cell d = { s.cell d with pins := if d = c then (s.cell d).pins - 1 else (s.cell d).pins } := by
  by_cases h : d = c
  · subst h; unfold State.unpinCell; split <;> simp
  · unfold State.unpinCell; split <;> simp [h]

@[simp] theorem State.entry_unpinCell (s : State) (c : CellNo) (j : EntryNo) :
    (s.unpinCell c).entry j = s.entry j := by
  simp [State.entry]

@[simp] theorem State.incarnation_unpinCell (s : State) (c : CellNo) (k : SlotNo) :
    ((s.unpinCell c).slot k).incarnation = (s.slot k).incarnation := by
  unfold State.unpinCell
  split <;> simp

/-- A dropped pin changes a record only where its cell was owed (R9). -/
theorem State.record_unpinCell (s : State) (c : CellNo) (k : SlotNo) :
    (s.unpinCell c).record k = s.record k ∨
      ∃ r, s.record k = some r ∧ r.next = .owed c ∧
        (s.unpinCell c).record k = some { r with next := .staging c none } := by
  unfold State.unpinCell
  split
  · simpa using State.record_routeUnpinned (s.setCell c { s.cell c with pins := (s.cell c).pins - 1 }) c k
  · exact .inl (by simp)

/-! ### A slot freed (R19) -/

@[simp] theorem State.freeSlot_fields (s : State) (k : SlotNo) :
    (s.freeSlot k).pending = s.pending ∧ (s.freeSlot k).resetPin = s.resetPin ∧ (s.freeSlot k).ready = s.ready ∧
      (s.freeSlot k).mode = s.mode ∧ (s.freeSlot k).tickPeriod = s.tickPeriod ∧
      (s.freeSlot k).answerTimeout = s.answerTimeout ∧ (s.freeSlot k).orphanHold = s.orphanHold ∧
      (s.freeSlot k).generation = s.generation ∧ (s.freeSlot k).cells = s.cells ∧ (s.freeSlot k).jobs = s.jobs ∧
      (s.freeSlot k).path = s.path ∧ (s.freeSlot k).lastGranted = s.lastGranted ∧
      (s.freeSlot k).requests = s.requests ∧ (s.freeSlot k).etc = s.etc ∧ (s.freeSlot k).prescaler = s.prescaler ∧
      (s.freeSlot k).scan = s.scan := by
  unfold State.freeSlot
  (repeat' split) <;> simp

@[simp] theorem State.port_freeSlot (s : State) (k : SlotNo) (q : Port) : (s.freeSlot k).port q = s.port q := by
  unfold State.freeSlot
  (repeat' split) <;> simp

@[simp] theorem State.cell_freeSlot (s : State) (k : SlotNo) (j : CellNo) : (s.freeSlot k).cell j = s.cell j := by
  simp [State.cell]

@[simp] theorem State.entry_freeSlot (s : State) (k : SlotNo) (j : EntryNo) : (s.freeSlot k).entry j = s.entry j := by
  simp [State.entry]

@[simp] theorem State.incarnation_freeSlot (s : State) (k j : SlotNo) :
    ((s.freeSlot k).slot j).incarnation = (s.slot j).incarnation := by
  unfold State.freeSlot
  (repeat' split) <;> simp

/-- The freed slot is FREE, and every other keeps its record. -/
@[simp] theorem State.record_freeSlot (s : State) (k j : SlotNo) :
    (s.freeSlot k).record j = if j = k then none else s.record j := by
  unfold State.freeSlot
  by_cases h : j = k
  · subst h
    split
    · simp_all
    · split <;> simp
  · split
    · simp [h]
    · split <;> simp [h]

/-! ### An update closed (R36) -/

@[simp] theorem State.closeOnSlot_fields (s : State) (k : SlotNo) :
    (s.closeOnSlot k).pending = s.pending ∧ (s.closeOnSlot k).resetPin = s.resetPin ∧
      (s.closeOnSlot k).ready = s.ready ∧ (s.closeOnSlot k).mode = s.mode ∧
      (s.closeOnSlot k).tickPeriod = s.tickPeriod ∧ (s.closeOnSlot k).answerTimeout = s.answerTimeout ∧
      (s.closeOnSlot k).orphanHold = s.orphanHold ∧ (s.closeOnSlot k).generation = s.generation ∧
      (s.closeOnSlot k).cells = s.cells ∧ (s.closeOnSlot k).free = s.free ∧ (s.closeOnSlot k).detached = s.detached ∧
      (s.closeOnSlot k).jobs = s.jobs ∧ (s.closeOnSlot k).path = s.path ∧
      (s.closeOnSlot k).lastGranted = s.lastGranted ∧ (s.closeOnSlot k).requests = s.requests ∧
      (s.closeOnSlot k).etc = s.etc ∧ (s.closeOnSlot k).prescaler = s.prescaler ∧ (s.closeOnSlot k).scan = s.scan := by
  unfold State.closeOnSlot
  split <;> simp

@[simp] theorem State.port_closeOnSlot (s : State) (k : SlotNo) (q : Port) :
    (s.closeOnSlot k).port q = s.port q := by
  unfold State.closeOnSlot
  split <;> simp

@[simp] theorem State.cell_closeOnSlot (s : State) (k : SlotNo) (j : CellNo) :
    (s.closeOnSlot k).cell j = s.cell j := by
  simp [State.cell]

@[simp] theorem State.entry_closeOnSlot (s : State) (k : SlotNo) (j : EntryNo) :
    (s.closeOnSlot k).entry j = s.entry j := by
  simp [State.entry]

@[simp] theorem State.incarnation_closeOnSlot (s : State) (k j : SlotNo) :
    ((s.closeOnSlot k).slot j).incarnation = (s.slot j).incarnation := by
  unfold State.closeOnSlot
  split <;> simp

@[simp] theorem State.record_closeOnSlot (s : State) (k j : SlotNo) :
    (s.closeOnSlot k).record j = if j = k then (s.record j).map Record.closed else s.record j := by
  unfold State.closeOnSlot
  by_cases h : j = k
  · subst h; split <;> simp_all
  · split <;> simp [h]

/-- A closed record keeps every field but its update, and every cell. -/
@[simp] theorem Record.closed_fields (r : Record) :
    r.closed.key = r.key ∧ r.closed.depth = r.depth ∧ r.closed.versions = r.versions ∧ r.closed.spares = r.spares ∧
      r.closed.lastSequence = r.lastSequence ∧ r.closed.period = r.period ∧ r.closed.autoAnswer = r.autoAnswer ∧
      r.closed.life = r.life ∧ r.closed.watch = r.watch ∧ r.closed.next.cell = r.next.cell ∧
      r.closed.openUpdate = none := by
  rcases r with ⟨_, _, _, _ | _⟩ <;> simp [Record.closed, Record.openUpdate, NextCell.cell]

@[simp] theorem Record.cells_closed (r : Record) : r.closed.cells = r.cells := by
  simp [Record.cells]

@[simp] theorem Record.producer_closed (r : Record) : r.closed.producer = r.producer := by
  simp [Record.producer]

@[simp] theorem State.closeUpdate_fields (s : State) (p : Port) (k : SlotNo) :
    (s.closeUpdate p k).pending = s.pending ∧ (s.closeUpdate p k).resetPin = s.resetPin ∧
      (s.closeUpdate p k).ready = s.ready ∧ (s.closeUpdate p k).mode = s.mode ∧
      (s.closeUpdate p k).tickPeriod = s.tickPeriod ∧ (s.closeUpdate p k).answerTimeout = s.answerTimeout ∧
      (s.closeUpdate p k).orphanHold = s.orphanHold ∧ (s.closeUpdate p k).generation = s.generation ∧
      (s.closeUpdate p k).cells = s.cells ∧ (s.closeUpdate p k).free = s.free ∧
      (s.closeUpdate p k).detached = s.detached ∧ (s.closeUpdate p k).jobs = s.jobs ∧
      (s.closeUpdate p k).path = s.path ∧ (s.closeUpdate p k).lastGranted = s.lastGranted ∧
      (s.closeUpdate p k).requests = s.requests ∧ (s.closeUpdate p k).etc = s.etc ∧
      (s.closeUpdate p k).prescaler = s.prescaler ∧ (s.closeUpdate p k).scan = s.scan := by
  simp [State.closeUpdate]

@[simp] theorem State.cell_closeUpdate (s : State) (p : Port) (k : SlotNo) (j : CellNo) :
    (s.closeUpdate p k).cell j = s.cell j := by
  simp [State.cell]

@[simp] theorem State.entry_closeUpdate (s : State) (p : Port) (k : SlotNo) (j : EntryNo) :
    (s.closeUpdate p k).entry j = s.entry j := by
  simp [State.entry]

@[simp] theorem State.port_closeUpdate (s : State) (p q : Port) (k : SlotNo) :
    (s.closeUpdate p k).port q = if q = p then (s.port q).dropOpen k else s.port q := by
  simp [State.closeUpdate, State.port_updatePort_eq]

@[simp] theorem State.record_closeUpdate (s : State) (p : Port) (k j : SlotNo) :
    (s.closeUpdate p k).record j = if j = k then (s.record j).map Record.closed else s.record j := by
  simp [State.closeUpdate]

@[simp] theorem State.incarnation_closeUpdate (s : State) (p : Port) (k j : SlotNo) :
    ((s.closeUpdate p k).slot j).incarnation = (s.slot j).incarnation := by
  simp [State.closeUpdate]

/-! ### The updates of an open list closed one after another (R156) -/

@[simp] theorem State.foldl_closeOnSlot_fields (ks : List SlotNo) (s : State) :
    (ks.foldl State.closeOnSlot s).pending = s.pending ∧ (ks.foldl State.closeOnSlot s).resetPin = s.resetPin ∧
      (ks.foldl State.closeOnSlot s).ready = s.ready ∧ (ks.foldl State.closeOnSlot s).mode = s.mode ∧
      (ks.foldl State.closeOnSlot s).tickPeriod = s.tickPeriod ∧
      (ks.foldl State.closeOnSlot s).answerTimeout = s.answerTimeout ∧
      (ks.foldl State.closeOnSlot s).orphanHold = s.orphanHold ∧
      (ks.foldl State.closeOnSlot s).generation = s.generation ∧ (ks.foldl State.closeOnSlot s).cells = s.cells ∧
      (ks.foldl State.closeOnSlot s).free = s.free ∧ (ks.foldl State.closeOnSlot s).detached = s.detached ∧
      (ks.foldl State.closeOnSlot s).jobs = s.jobs ∧ (ks.foldl State.closeOnSlot s).path = s.path ∧
      (ks.foldl State.closeOnSlot s).lastGranted = s.lastGranted ∧
      (ks.foldl State.closeOnSlot s).requests = s.requests ∧ (ks.foldl State.closeOnSlot s).etc = s.etc ∧
      (ks.foldl State.closeOnSlot s).prescaler = s.prescaler ∧ (ks.foldl State.closeOnSlot s).scan = s.scan := by
  induction ks generalizing s with
  | nil => simp
  | cons k ks ih => simpa using ih (s.closeOnSlot k)

@[simp] theorem State.port_foldl_closeOnSlot (ks : List SlotNo) (s : State) (q : Port) :
    (ks.foldl State.closeOnSlot s).port q = s.port q := by
  induction ks generalizing s with
  | nil => rfl
  | cons k ks ih => simpa using ih (s.closeOnSlot k)

@[simp] theorem State.cell_foldl_closeOnSlot (ks : List SlotNo) (s : State) (c : CellNo) :
    (ks.foldl State.closeOnSlot s).cell c = s.cell c := by
  simp [State.cell]

@[simp] theorem State.entry_foldl_closeOnSlot (ks : List SlotNo) (s : State) (i : EntryNo) :
    (ks.foldl State.closeOnSlot s).entry i = s.entry i := by
  simp [State.entry]

@[simp] theorem State.incarnation_foldl_closeOnSlot (ks : List SlotNo) (s : State) (k : SlotNo) :
    ((ks.foldl State.closeOnSlot s).slot k).incarnation = (s.slot k).incarnation := by
  induction ks generalizing s with
  | nil => rfl
  | cons j ks ih => simpa using ih (s.closeOnSlot j)

@[simp] theorem Record.closed_closed (r : Record) : r.closed.closed = r.closed := by
  rcases r with ⟨_, _, _, _ | _⟩ <;> rfl

/-- Every slot of the list has its update closed, and no other record changes. -/
@[simp] theorem State.record_foldl_closeOnSlot (ks : List SlotNo) (s : State) (k : SlotNo) :
    (ks.foldl State.closeOnSlot s).record k = if k ∈ ks then (s.record k).map Record.closed else s.record k := by
  induction ks generalizing s with
  | nil => simp
  | cons j ks ih =>
    rw [List.foldl_cons, ih]
    by_cases h : k = j
    · subst h
      by_cases h' : k ∈ ks <;> cases hr : s.record k <;> simp [h', hr]
    · by_cases h' : k ∈ ks <;> simp [h, h']

/-! ### The barrier (R162) -/

@[simp] theorem State.enterRun_fields (s : State) :
    s.enterRun.pending = s.pending ∧ s.enterRun.resetPin = s.resetPin ∧ s.enterRun.ready = s.ready ∧
      s.enterRun.tickPeriod = s.tickPeriod ∧ s.enterRun.answerTimeout = s.answerTimeout ∧
      s.enterRun.orphanHold = s.orphanHold ∧ s.enterRun.generation = s.generation ∧
      s.enterRun.slots = s.slots ∧ s.enterRun.cells = s.cells ∧ s.enterRun.free = s.free ∧
      s.enterRun.detached = s.detached ∧ s.enterRun.requests = s.requests := by
  simp [State.enterRun]

@[simp] theorem State.enterRun_effects (s : State) :
    s.enterRun.mode = .run ∧ s.enterRun.etc = 0 ∧ s.enterRun.prescaler = 0 ∧ s.enterRun.scan = 0 ∧
      s.enterRun.jobs = s.jobs ++ [.mode s.generation s.activePorts] := by
  simp [State.enterRun]

@[simp] theorem State.slot_enterRun (s : State) (j : SlotNo) : s.enterRun.slot j = s.slot j := by
  simp [State.slot]

@[simp] theorem State.record_enterRun (s : State) (j : SlotNo) : s.enterRun.record j = s.record j := by
  simp [State.record, State.slot]

@[simp] theorem State.cell_enterRun (s : State) (j : CellNo) : s.enterRun.cell j = s.cell j := by
  simp [State.cell]

@[simp] theorem State.entry_enterRun (s : State) (j : EntryNo) : s.enterRun.entry j = s.entry j := by
  simp [State.entry]

@[simp] theorem State.enterRun_portFields (s : State) (q : Port) :
    (s.enterRun.port q).state = (s.port q).state ∧ (s.enterRun.port q).args = (s.port q).args ∧
      (s.enterRun.port q).result = (s.port q).result ∧ (s.enterRun.port q).rdata = (s.port q).rdata ∧
      (s.enterRun.port q).openList = (s.port q).openList ∧
      (s.enterRun.port q).stagingPointer = (s.port q).stagingPointer ∧
      (s.enterRun.port q).writeDenied = (s.port q).writeDenied ∧
      (s.enterRun.port q).groupCounter = (s.port q).groupCounter ∧
      (s.enterRun.port q).fetchedSlot = (s.port q).fetchedSlot ∧ (s.enterRun.port q).header = (s.port q).header ∧
      (s.enterRun.port q).payload = (s.port q).payload ∧ (s.enterRun.port q).valid = (s.port q).valid ∧
      (s.enterRun.port q).underrun = (s.port q).underrun ∧ (s.enterRun.port q).discarded = (s.port q).discarded ∧
      (s.enterRun.port q).timeLatch = (s.port q).timeLatch ∧ (s.enterRun.port q).genLatch = (s.port q).genLatch ∧
      (s.enterRun.port q).filters = (s.port q).filters ∧ (s.enterRun.port q).queue = (s.port q).queue ∧
      (s.enterRun.port q).prst = (s.port q).prst ∧ (s.enterRun.port q).transaction = (s.port q).transaction := by
  simp [State.enterRun]

@[simp] theorem State.vote_enterRun (s : State) (q : Port) : (s.enterRun.port q).vote = false := by
  simp [State.enterRun]

/-- Everything a check of the barrier can do: nothing, or the RUN transition in SETUP with room for its job. -/
theorem State.checkBarrier_cases (s : State) :
    s.checkBarrier = s ∨
      s.mode = .setup ∧ s.barrierHolds = true ∧ s.hasRoom = true ∧ s.checkBarrier = s.enterRun := by
  unfold State.checkBarrier
  split
  · exact .inl rfl
  · split
    · rename_i hm h
      simp only [Bool.and_eq_true] at h
      exact .inr ⟨hm, h.1, h.2, rfl⟩
    · exact .inl rfl

/-- In RUN a check of the barrier does nothing. -/
@[simp] theorem State.checkBarrier_run {s : State} (h : s.mode = .run) : s.checkBarrier = s := by
  simp [State.checkBarrier, h]

@[simp] theorem State.checkBarrier_fields (s : State) :
    s.checkBarrier.pending = s.pending ∧ s.checkBarrier.resetPin = s.resetPin ∧
      s.checkBarrier.ready = s.ready ∧ s.checkBarrier.tickPeriod = s.tickPeriod ∧
      s.checkBarrier.answerTimeout = s.answerTimeout ∧ s.checkBarrier.orphanHold = s.orphanHold ∧
      s.checkBarrier.generation = s.generation ∧ s.checkBarrier.slots = s.slots ∧
      s.checkBarrier.cells = s.cells ∧ s.checkBarrier.free = s.free ∧ s.checkBarrier.detached = s.detached ∧
      s.checkBarrier.requests = s.requests := by
  rcases s.checkBarrier_cases with h | ⟨-, -, -, h⟩ <;> rw [h] <;> simp

@[simp] theorem State.slot_checkBarrier (s : State) (j : SlotNo) : s.checkBarrier.slot j = s.slot j := by
  simp [State.slot]

@[simp] theorem State.record_checkBarrier (s : State) (j : SlotNo) : s.checkBarrier.record j = s.record j := by
  simp [State.record, State.slot]

@[simp] theorem State.cell_checkBarrier (s : State) (j : CellNo) : s.checkBarrier.cell j = s.cell j := by
  simp [State.cell]

@[simp] theorem State.entry_checkBarrier (s : State) (j : EntryNo) : s.checkBarrier.entry j = s.entry j := by
  simp [State.entry]

@[simp] theorem State.checkBarrier_portFields (s : State) (q : Port) :
    (s.checkBarrier.port q).state = (s.port q).state ∧ (s.checkBarrier.port q).args = (s.port q).args ∧
      (s.checkBarrier.port q).result = (s.port q).result ∧ (s.checkBarrier.port q).rdata = (s.port q).rdata ∧
      (s.checkBarrier.port q).openList = (s.port q).openList ∧
      (s.checkBarrier.port q).stagingPointer = (s.port q).stagingPointer ∧
      (s.checkBarrier.port q).writeDenied = (s.port q).writeDenied ∧
      (s.checkBarrier.port q).groupCounter = (s.port q).groupCounter ∧
      (s.checkBarrier.port q).fetchedSlot = (s.port q).fetchedSlot ∧
      (s.checkBarrier.port q).header = (s.port q).header ∧ (s.checkBarrier.port q).payload = (s.port q).payload ∧
      (s.checkBarrier.port q).valid = (s.port q).valid ∧ (s.checkBarrier.port q).underrun = (s.port q).underrun ∧
      (s.checkBarrier.port q).discarded = (s.port q).discarded ∧
      (s.checkBarrier.port q).timeLatch = (s.port q).timeLatch ∧
      (s.checkBarrier.port q).genLatch = (s.port q).genLatch ∧
      (s.checkBarrier.port q).filters = (s.port q).filters ∧ (s.checkBarrier.port q).queue = (s.port q).queue ∧
      (s.checkBarrier.port q).prst = (s.port q).prst ∧
      (s.checkBarrier.port q).transaction = (s.port q).transaction := by
  rcases s.checkBarrier_cases with h | ⟨-, -, -, h⟩ <;> rw [h] <;> simp

/-! ### Settings written (R160) -/

@[simp] theorem State.settingsWritten_fields (s : State) :
    s.settingsWritten.pending = s.pending ∧ s.settingsWritten.resetPin = s.resetPin ∧
      s.settingsWritten.ready = s.ready ∧ s.settingsWritten.mode = s.mode ∧
      s.settingsWritten.tickPeriod = s.tickPeriod ∧ s.settingsWritten.answerTimeout = s.answerTimeout ∧
      s.settingsWritten.orphanHold = s.orphanHold ∧ s.settingsWritten.slots = s.slots ∧
      s.settingsWritten.cells = s.cells ∧ s.settingsWritten.free = s.free ∧
      s.settingsWritten.detached = s.detached ∧ s.settingsWritten.requests = s.requests ∧
      s.settingsWritten.etc = s.etc ∧ s.settingsWritten.prescaler = s.prescaler ∧
      s.settingsWritten.scan = s.scan := by
  unfold State.settingsWritten
  split <;> simp

@[simp] theorem State.settingsWritten_effects (s : State) :
    s.settingsWritten.generation = s.generation + 1 ∧
      s.settingsWritten.jobs =
        if s.votedPorts = [] then s.jobs else s.jobs ++ [.votesCleared (s.generation + 1) s.votedPorts] := by
  unfold State.settingsWritten
  by_cases h : s.votedPorts = [] <;> simp [h]

@[simp] theorem State.slot_settingsWritten (s : State) (j : SlotNo) : s.settingsWritten.slot j = s.slot j := by
  simp [State.slot]

@[simp] theorem State.record_settingsWritten (s : State) (j : SlotNo) : s.settingsWritten.record j = s.record j := by
  simp [State.record, State.slot]

@[simp] theorem State.cell_settingsWritten (s : State) (j : CellNo) : s.settingsWritten.cell j = s.cell j := by
  simp [State.cell]

@[simp] theorem State.entry_settingsWritten (s : State) (j : EntryNo) : s.settingsWritten.entry j = s.entry j := by
  simp [State.entry]

@[simp] theorem State.settingsWritten_portFields (s : State) (q : Port) :
    (s.settingsWritten.port q).state = (s.port q).state ∧ (s.settingsWritten.port q).args = (s.port q).args ∧
      (s.settingsWritten.port q).result = (s.port q).result ∧
      (s.settingsWritten.port q).rdata = (s.port q).rdata ∧
      (s.settingsWritten.port q).openList = (s.port q).openList ∧
      (s.settingsWritten.port q).stagingPointer = (s.port q).stagingPointer ∧
      (s.settingsWritten.port q).writeDenied = (s.port q).writeDenied ∧
      (s.settingsWritten.port q).groupCounter = (s.port q).groupCounter ∧
      (s.settingsWritten.port q).fetchedSlot = (s.port q).fetchedSlot ∧
      (s.settingsWritten.port q).header = (s.port q).header ∧
      (s.settingsWritten.port q).payload = (s.port q).payload ∧
      (s.settingsWritten.port q).valid = (s.port q).valid ∧
      (s.settingsWritten.port q).underrun = (s.port q).underrun ∧
      (s.settingsWritten.port q).discarded = (s.port q).discarded ∧
      (s.settingsWritten.port q).timeLatch = (s.port q).timeLatch ∧
      (s.settingsWritten.port q).genLatch = (s.port q).genLatch ∧
      (s.settingsWritten.port q).filters = (s.port q).filters ∧
      (s.settingsWritten.port q).queue = (s.port q).queue ∧ (s.settingsWritten.port q).prst = (s.port q).prst ∧
      (s.settingsWritten.port q).transaction = (s.port q).transaction := by
  unfold State.settingsWritten
  split <;> simp

@[simp] theorem State.vote_settingsWritten (s : State) (q : Port) : (s.settingsWritten.port q).vote = false := by
  unfold State.settingsWritten
  split <;> simp

/-! ### The LEAVING entry (R156) -/

@[simp] theorem State.cancelFetch_fields (s : State) (f : FetchState) :
    (s.cancelFetch f).pending = s.pending ∧ (s.cancelFetch f).resetPin = s.resetPin ∧
      (s.cancelFetch f).ready = s.ready ∧ (s.cancelFetch f).mode = s.mode ∧
      (s.cancelFetch f).tickPeriod = s.tickPeriod ∧ (s.cancelFetch f).answerTimeout = s.answerTimeout ∧
      (s.cancelFetch f).orphanHold = s.orphanHold ∧ (s.cancelFetch f).generation = s.generation ∧
      (s.cancelFetch f).jobs = s.jobs ∧ (s.cancelFetch f).lastGranted = s.lastGranted ∧
      (s.cancelFetch f).requests = s.requests ∧ (s.cancelFetch f).etc = s.etc ∧
      (s.cancelFetch f).prescaler = s.prescaler ∧ (s.cancelFetch f).scan = s.scan := by
  unfold State.cancelFetch
  split <;> simp

@[simp] theorem State.port_cancelFetch (s : State) (f : FetchState) (q : Port) :
    (s.cancelFetch f).port q = s.port q := by
  unfold State.cancelFetch
  split <;> simp

@[simp] theorem State.entry_cancelFetch (s : State) (f : FetchState) (i : EntryNo) :
    (s.cancelFetch f).entry i = s.entry i := by
  simp [State.entry]

@[simp] theorem State.incarnation_cancelFetch (s : State) (f : FetchState) (k : SlotNo) :
    ((s.cancelFetch f).slot k).incarnation = (s.slot k).incarnation := by
  unfold State.cancelFetch
  split <;> simp

@[simp] theorem State.cancelFetch_idle (s : State) : s.cancelFetch .idle = s := rfl

@[simp] theorem State.cancelFetch_ready (s : State) : s.cancelFetch .ready = s := rfl

/-- A cancelled fetch drops its pin, and its copy frees the path. -/
theorem State.cancelFetch_inFlight (s : State) (x : CopyPhase) (c : CellNo) :
    s.cancelFetch (.inFlight x c) = State.unpinCell { s with path := if x = .copying then none else s.path } c := by
  cases x <;> rfl

@[simp] theorem State.settleLeaving_fields (s : State) (p : Port) :
    (s.settleLeaving p).pending = s.pending ∧ (s.settleLeaving p).resetPin = s.resetPin ∧
      (s.settleLeaving p).ready = s.ready ∧ (s.settleLeaving p).mode = s.mode ∧
      (s.settleLeaving p).tickPeriod = s.tickPeriod ∧ (s.settleLeaving p).answerTimeout = s.answerTimeout ∧
      (s.settleLeaving p).orphanHold = s.orphanHold ∧ (s.settleLeaving p).generation = s.generation ∧
      (s.settleLeaving p).slots = s.slots ∧ (s.settleLeaving p).cells = s.cells ∧ (s.settleLeaving p).free = s.free ∧
      (s.settleLeaving p).detached = s.detached ∧ (s.settleLeaving p).jobs = s.jobs ∧
      (s.settleLeaving p).path = s.path ∧ (s.settleLeaving p).lastGranted = s.lastGranted ∧
      (s.settleLeaving p).requests = s.requests ∧ (s.settleLeaving p).etc = s.etc ∧
      (s.settleLeaving p).prescaler = s.prescaler ∧ (s.settleLeaving p).scan = s.scan := by
  unfold State.settleLeaving
  split <;> simp

@[simp] theorem State.slot_settleLeaving (s : State) (p : Port) (j : SlotNo) :
    (s.settleLeaving p).slot j = s.slot j := by
  simp [State.slot]

@[simp] theorem State.record_settleLeaving (s : State) (p : Port) (j : SlotNo) :
    (s.settleLeaving p).record j = s.record j := by
  simp [State.record, State.slot]

@[simp] theorem State.cell_settleLeaving (s : State) (p : Port) (j : CellNo) :
    (s.settleLeaving p).cell j = s.cell j := by
  simp [State.cell]

@[simp] theorem State.entry_settleLeaving (s : State) (p : Port) (j : EntryNo) :
    (s.settleLeaving p).entry j = s.entry j := by
  simp [State.entry]

@[simp] theorem State.settleLeaving_portFields (s : State) (p : Port) (q : Port) :
    ((s.settleLeaving p).port q).vote = (s.port q).vote ∧ ((s.settleLeaving p).port q).args = (s.port q).args ∧
      ((s.settleLeaving p).port q).result = (s.port q).result ∧
      ((s.settleLeaving p).port q).rdata = (s.port q).rdata ∧
      ((s.settleLeaving p).port q).openList = (s.port q).openList ∧
      ((s.settleLeaving p).port q).stagingPointer = (s.port q).stagingPointer ∧
      ((s.settleLeaving p).port q).writeDenied = (s.port q).writeDenied ∧
      ((s.settleLeaving p).port q).groupCounter = (s.port q).groupCounter ∧
      ((s.settleLeaving p).port q).fetch = (s.port q).fetch ∧
      ((s.settleLeaving p).port q).fetchedSlot = (s.port q).fetchedSlot ∧
      ((s.settleLeaving p).port q).header = (s.port q).header ∧
      ((s.settleLeaving p).port q).payload = (s.port q).payload ∧
      ((s.settleLeaving p).port q).valid = (s.port q).valid ∧
      ((s.settleLeaving p).port q).underrun = (s.port q).underrun ∧
      ((s.settleLeaving p).port q).discarded = (s.port q).discarded ∧
      ((s.settleLeaving p).port q).timeLatch = (s.port q).timeLatch ∧
      ((s.settleLeaving p).port q).genLatch = (s.port q).genLatch ∧
      ((s.settleLeaving p).port q).filters = (s.port q).filters ∧
      ((s.settleLeaving p).port q).queue = (s.port q).queue ∧ ((s.settleLeaving p).port q).prst = (s.port q).prst ∧
      ((s.settleLeaving p).port q).transaction = (s.port q).transaction := by
  unfold State.settleLeaving
  split
  · by_cases h : q = p
    · subst h; simp
    · simp [h]
  · simp

/-- A port in LEAVING that produces no slot becomes OFFLINE, and no other port changes (R157). -/
theorem State.port_settleLeaving (s : State) (p q : Port) :
    (s.settleLeaving p).port q =
      { s.port q with
        state := if q = p ∧ (s.port p).state = .leaving ∧ s.producedSlots p = [] then .offline
          else (s.port q).state } := by
  unfold State.settleLeaving
  by_cases hc : (s.port p).state = .leaving ∧ s.producedSlots p = []
  · by_cases h : q = p
    · subst h; simp [hc]
    · simp [hc, h]
  · by_cases h : q = p
    · subst h; simp [hc]
    · simp [hc, h]

@[simp] theorem State.leavingEntry_fields (s : State) (p : Port) :
    (s.leavingEntry p).pending = s.pending ∧ (s.leavingEntry p).resetPin = s.resetPin ∧
      (s.leavingEntry p).ready = s.ready ∧ (s.leavingEntry p).tickPeriod = s.tickPeriod ∧
      (s.leavingEntry p).answerTimeout = s.answerTimeout ∧ (s.leavingEntry p).orphanHold = s.orphanHold ∧
      (s.leavingEntry p).generation = s.generation := by
  simp [State.leavingEntry]

@[simp] theorem State.entry_leavingEntry (s : State) (p : Port) (i : EntryNo) :
    (s.leavingEntry p).entry i = (s.entry i).filter fun e => !(e.requester == p) := by
  simp [State.leavingEntry]

@[simp] theorem State.incarnation_leavingEntry (s : State) (p : Port) (k : SlotNo) :
    ((s.leavingEntry p).slot k).incarnation = (s.slot k).incarnation := by
  simp [State.leavingEntry]

/-- A LEAVING entry changes nothing of another port but its vote (in a RUN transition) and its copy phase. -/
theorem State.leavingEntry_otherPort (s : State) {p q : Port} (h : q ≠ p) :
    ((s.leavingEntry p).port q).state = (s.port q).state ∧ ((s.leavingEntry p).port q).args = (s.port q).args ∧
      ((s.leavingEntry p).port q).result = (s.port q).result ∧ ((s.leavingEntry p).port q).rdata = (s.port q).rdata ∧
      ((s.leavingEntry p).port q).openList = (s.port q).openList ∧
      ((s.leavingEntry p).port q).stagingPointer = (s.port q).stagingPointer ∧
      ((s.leavingEntry p).port q).writeDenied = (s.port q).writeDenied ∧
      ((s.leavingEntry p).port q).groupCounter = (s.port q).groupCounter ∧
      ((s.leavingEntry p).port q).fetchedSlot = (s.port q).fetchedSlot ∧
      ((s.leavingEntry p).port q).header = (s.port q).header ∧
      ((s.leavingEntry p).port q).payload = (s.port q).payload ∧
      ((s.leavingEntry p).port q).valid = (s.port q).valid ∧
      ((s.leavingEntry p).port q).underrun = (s.port q).underrun ∧
      ((s.leavingEntry p).port q).discarded = (s.port q).discarded ∧
      ((s.leavingEntry p).port q).timeLatch = (s.port q).timeLatch ∧
      ((s.leavingEntry p).port q).genLatch = (s.port q).genLatch ∧
      ((s.leavingEntry p).port q).filters = (s.port q).filters ∧
      ((s.leavingEntry p).port q).queue = (s.port q).queue ∧ ((s.leavingEntry p).port q).prst = (s.port q).prst ∧
      ((s.leavingEntry p).port q).transaction = (s.port q).transaction := by
  simp [State.leavingEntry, State.port_settleLeaving, h]

/-! ### Results, and a command taken in hand (R154, R169, R170) -/

@[simp] theorem State.setResult_fields (s : State) (p : Port) (x : Result) (d : List Byte) :
    (s.setResult p x d).pending = s.pending ∧ (s.setResult p x d).resetPin = s.resetPin ∧
      (s.setResult p x d).ready = s.ready ∧ (s.setResult p x d).mode = s.mode ∧
      (s.setResult p x d).tickPeriod = s.tickPeriod ∧ (s.setResult p x d).answerTimeout = s.answerTimeout ∧
      (s.setResult p x d).orphanHold = s.orphanHold ∧ (s.setResult p x d).generation = s.generation ∧
      (s.setResult p x d).slots = s.slots ∧ (s.setResult p x d).cells = s.cells ∧ (s.setResult p x d).free = s.free ∧
      (s.setResult p x d).detached = s.detached ∧ (s.setResult p x d).jobs = s.jobs ∧
      (s.setResult p x d).path = s.path ∧ (s.setResult p x d).lastGranted = s.lastGranted ∧
      (s.setResult p x d).requests = s.requests ∧ (s.setResult p x d).etc = s.etc ∧
      (s.setResult p x d).prescaler = s.prescaler ∧ (s.setResult p x d).scan = s.scan := by
  simp [State.setResult]

@[simp] theorem State.slot_setResult (s : State) (p : Port) (x : Result) (d : List Byte) (j : SlotNo) :
    (s.setResult p x d).slot j = s.slot j := by
  simp [State.slot]

@[simp] theorem State.record_setResult (s : State) (p : Port) (x : Result) (d : List Byte) (j : SlotNo) :
    (s.setResult p x d).record j = s.record j := by
  simp [State.record, State.slot]

@[simp] theorem State.cell_setResult (s : State) (p : Port) (x : Result) (d : List Byte) (j : CellNo) :
    (s.setResult p x d).cell j = s.cell j := by
  simp [State.cell]

@[simp] theorem State.entry_setResult (s : State) (p : Port) (x : Result) (d : List Byte) (j : EntryNo) :
    (s.setResult p x d).entry j = s.entry j := by
  simp [State.entry]

@[simp] theorem State.port_setResult (s : State) (p q : Port) (x : Result) (d : List Byte) :
    (s.setResult p x d).port q = if q = p then { s.port q with result := x, rdata := rdataOf d } else s.port q := by
  simp [State.setResult, State.port_updatePort_eq]

@[simp] theorem State.handCommand_fields (s : State) (p : Port) :
    (s.handCommand p).pending = s.pending ∧ (s.handCommand p).resetPin = s.resetPin ∧
      (s.handCommand p).ready = s.ready ∧ (s.handCommand p).mode = s.mode ∧
      (s.handCommand p).tickPeriod = s.tickPeriod ∧ (s.handCommand p).answerTimeout = s.answerTimeout ∧
      (s.handCommand p).orphanHold = s.orphanHold ∧ (s.handCommand p).generation = s.generation ∧
      (s.handCommand p).slots = s.slots ∧ (s.handCommand p).cells = s.cells ∧ (s.handCommand p).free = s.free ∧
      (s.handCommand p).detached = s.detached ∧ (s.handCommand p).jobs = s.jobs ∧ (s.handCommand p).path = s.path ∧
      (s.handCommand p).lastGranted = s.lastGranted ∧ (s.handCommand p).requests = s.requests ∧
      (s.handCommand p).etc = s.etc ∧ (s.handCommand p).prescaler = s.prescaler ∧ (s.handCommand p).scan = s.scan := by
  simp [State.handCommand]

@[simp] theorem State.slot_handCommand (s : State) (p : Port) (j : SlotNo) : (s.handCommand p).slot j = s.slot j := by
  simp [State.slot]

@[simp] theorem State.record_handCommand (s : State) (p : Port) (j : SlotNo) :
    (s.handCommand p).record j = s.record j := by
  simp [State.record, State.slot]

@[simp] theorem State.cell_handCommand (s : State) (p : Port) (j : CellNo) : (s.handCommand p).cell j = s.cell j := by
  simp [State.cell]

@[simp] theorem State.entry_handCommand (s : State) (p : Port) (j : EntryNo) :
    (s.handCommand p).entry j = s.entry j := by
  simp [State.entry]

@[simp] theorem State.port_handCommand (s : State) (p q : Port) :
    (s.handCommand p).port q = if q = p then { (s.port q).endDoze with transaction := .discarding } else s.port q := by
  simp [State.handCommand, State.port_updatePort_eq]

@[simp] theorem State.producedSlots_handCommand (s : State) (p q : Port) :
    (s.handCommand p).producedSlots q = s.producedSlots q := by
  simp [State.producedSlots, State.producer]

/-- The end of DOZE changes the port state and wake pending alone. -/
@[simp] theorem PortUnit.endDoze_fields (u : PortUnit) :
    u.endDoze.vote = u.vote ∧ u.endDoze.args = u.args ∧ u.endDoze.result = u.result ∧ u.endDoze.rdata = u.rdata ∧
      u.endDoze.openList = u.openList ∧ u.endDoze.stagingPointer = u.stagingPointer ∧
      u.endDoze.writeDenied = u.writeDenied ∧ u.endDoze.groupCounter = u.groupCounter ∧ u.endDoze.fetch = u.fetch ∧
      u.endDoze.fetchedSlot = u.fetchedSlot ∧ u.endDoze.header = u.header ∧ u.endDoze.payload = u.payload ∧
      u.endDoze.valid = u.valid ∧ u.endDoze.underrun = u.underrun ∧ u.endDoze.discarded = u.discarded ∧
      u.endDoze.timeLatch = u.timeLatch ∧ u.endDoze.genLatch = u.genLatch ∧ u.endDoze.filters = u.filters ∧
      u.endDoze.prst = u.prst ∧ u.endDoze.transaction = u.transaction := by
  unfold PortUnit.endDoze
  split <;> simp

@[simp] theorem PortUnit.endDoze_state (u : PortUnit) :
    u.endDoze.state = if u.state = .doze then .active else u.state := by
  unfold PortUnit.endDoze
  split <;> simp_all

@[simp] theorem PortUnit.endDoze_queue (u : PortUnit) :
    u.endDoze.queue = if u.state = .doze then { u.queue with wakePending := false } else u.queue := by
  unfold PortUnit.endDoze
  split <;> simp_all

/-! ### The issue of a command (R150, R151, R169) -/

/-- The write byte that can issue the command is about to complete. -/
theorem State.writesAt_iff (s : State) (p : Port) (a : Addr) :
    s.writesAt p a = true ↔ s.decodes p = true ∧ (s.port p).transaction = .write a := by
  simp only [State.writesAt, Bool.and_eq_true]
  cases (s.port p).transaction <;> simp

/-- A byte that cannot issue the command does nothing. -/
theorem State.issue_of_not {s : State} {p : Port} {c : Command} (body : State → Reply)
    (h : s.writesAt p c.address = false) : s.issue p c body = s := by
  simp [State.issue, h]

/-- A command turned away by the port check or the mode check. -/
theorem State.issue_of_refused {s : State} {p : Port} {c : Command} {x : Result} (body : State → Reply)
    (h : s.writesAt p c.address = true) (hc : c.check (s.port p).endDoze.state s.mode = some x) :
    s.issue p c body = (s.handCommand p).setResult p x [] := by
  have hc' : c.check ((s.handCommand p).port p).state (s.handCommand p).mode = some x := by
    simpa [State.handCommand] using hc
  simp only [State.issue, h, if_true, hc', State.conclude]

/-- A command that passes the port check and the mode check is answered by its block. -/
theorem State.issue_of_passed {s : State} {p : Port} {c : Command} (body : State → Reply)
    (h : s.writesAt p c.address = true) (hc : c.check (s.port p).endDoze.state s.mode = none) :
    s.issue p c body = (s.handCommand p).conclude p (body (s.handCommand p)) := by
  have hc' : c.check ((s.handCommand p).port p).state (s.handCommand p).mode = none := by
    simpa [State.handCommand] using hc
  simp only [State.issue, h, if_true, hc']

/-- Everything an issue can do: nothing, a refusal of the checks, or what its block answers. -/
theorem State.issue_cases (s : State) (p : Port) (c : Command) (body : State → Reply) :
    s.issue p c body = s ∨
      s.writesAt p c.address = true ∧
        ((∃ x, c.check (s.port p).endDoze.state s.mode = some x ∧
            s.issue p c body = (s.handCommand p).setResult p x []) ∨
          c.check (s.port p).endDoze.state s.mode = none ∧
            s.issue p c body = (s.handCommand p).conclude p (body (s.handCommand p))) := by
  cases h : s.writesAt p c.address with
  | false => exact .inl (State.issue_of_not body h)
  | true =>
    refine .inr ⟨rfl, ?_⟩
    cases hc : c.check (s.port p).endDoze.state s.mode with
    | some x => exact .inl ⟨x, rfl, State.issue_of_refused body h hc⟩
    | none => exact .inr ⟨rfl, State.issue_of_passed body h hc⟩

/-! ### The slot and producer checks (R5) -/

/-- The slot check passes for exactly the slots the arguments name. -/
theorem State.checkSlot_ok {s : State} {a b : Byte} {k : SlotNo} {r : Record} :
    s.checkSlot a b = .ok (k, r) ↔ a.toNat = k.val ∧ s.record k = some r ∧ (s.slot k).incarnation = b := by
  constructor
  · intro h
    unfold State.checkSlot slotArg at h
    by_cases ha : a.toNat < 64
    · simp only [ha, dite_true] at h
      cases hr : s.record ⟨a.toNat, ha⟩ with
      | none => simp [hr] at h
      | some x =>
        simp only [hr] at h
        by_cases hi : (s.slot ⟨a.toNat, ha⟩).incarnation = b
        · simp only [hi, if_true, Except.ok.injEq, Prod.mk.injEq] at h
          obtain ⟨rfl, rfl⟩ := h
          exact ⟨rfl, hr, hi⟩
        · simp [hi] at h
    · simp [ha] at h
  · rintro ⟨ha, hr, hi⟩
    have hk : slotArg a = some k := by
      have hlt : a.toNat < 64 := by omega
      simp only [slotArg, hlt, dite_true, Option.some.injEq]
      exact Fin.ext ha
    simp [State.checkSlot, hk, hr, hi]

/-- The producer check passes when the slot check does and the calling port is the producer. -/
theorem State.checkProducer_ok {s : State} {p : Port} {a b : Byte} {k : SlotNo} {r : Record} :
    s.checkProducer p a b = .ok (k, r) ↔ s.checkSlot a b = .ok (k, r) ∧ r.producer = some p := by
  unfold State.checkProducer
  cases h : s.checkSlot a b with
  | error e => simp
  | ok x =>
    obtain ⟨j, y⟩ := x
    by_cases hp : y.producer = some p
    · simp only [hp, if_true, Except.ok.injEq, Prod.mk.injEq]
      constructor
      · rintro ⟨rfl, rfl⟩; exact ⟨⟨rfl, rfl⟩, hp⟩
      · exact fun h => h.1
    · simp only [hp, if_false, reduceCtorEq, Except.ok.injEq, Prod.mk.injEq, false_iff, not_and]
      rintro ⟨rfl, rfl⟩; exact hp

end Sys2Proof.Machine
end

