-- ==== Sys2Proof/Laws/Bytes.lean ====
section
/-! SUPPORT. What the bytes of a transaction can do: fixing a read byte, completing it, and completing a write byte. -/

namespace Sys2Proof.Machine

/-! ### Fixing a read byte (R166, R172, R176) -/

/-- The captures made when a read byte is fixed: the GEN latch at 1CH, the TIME latch at 1EH. -/
def PortUnit.captured (u : PortUnit) (a : Addr) (g : Half) (t : Time) : PortUnit :=
  { u with genLatch := if a = 0x1C then g else u.genLatch, timeLatch := if a = 0x1E then t else u.timeLatch }

/-- Fixing a byte makes the captures of its address, and changes nothing else. -/
theorem State.fixByte_state (s : State) (p : Port) (a : Addr) :
    (s.fixByte p a).1 = s.updatePort p fun u => u.captured a s.generation s.etc := by
  have key : ∀ b : Addr, b.toNat = a.toNat → b = a := fun b h => BitVec.eq_of_toNat_eq h
  by_cases h1 : a = 0x1C
  · subst h1
    simp [State.fixByte, PortUnit.captured]
  · by_cases h2 : a = 0x1E
    · subst h2
      simp [State.fixByte, PortUnit.captured]
    · have e : (fun u : PortUnit => u.captured a s.generation s.etc) = id := by
        funext u
        simp only [PortUnit.captured, if_neg h1, if_neg h2, id]
      have n1 : a.toNat ≠ 0x1C := fun h => h1 (key 0x1C h.symm).symm
      have n2 : a.toNat ≠ 0x1E := fun h => h2 (key 0x1E h.symm).symm
      rw [e]
      have e' : s.updatePort p id = s := by simp [State.updatePort]
      rw [e']
      simp only [State.fixByte, n1, n2, if_false]
      (repeat' split) <;> rfl

@[simp] theorem State.startByte_fields (s : State) (p : Port) (a : Addr) :
    (s.startByte p a).pending = s.pending ∧ (s.startByte p a).resetPin = s.resetPin ∧
      (s.startByte p a).ready = s.ready ∧ (s.startByte p a).mode = s.mode ∧
      (s.startByte p a).tickPeriod = s.tickPeriod ∧ (s.startByte p a).answerTimeout = s.answerTimeout ∧
      (s.startByte p a).orphanHold = s.orphanHold ∧ (s.startByte p a).generation = s.generation ∧
      (s.startByte p a).slots = s.slots ∧ (s.startByte p a).cells = s.cells ∧ (s.startByte p a).free = s.free ∧
      (s.startByte p a).detached = s.detached ∧ (s.startByte p a).jobs = s.jobs ∧ (s.startByte p a).path = s.path ∧
      (s.startByte p a).lastGranted = s.lastGranted ∧ (s.startByte p a).requests = s.requests ∧
      (s.startByte p a).etc = s.etc ∧ (s.startByte p a).prescaler = s.prescaler ∧ (s.startByte p a).scan = s.scan := by
  simp [State.startByte, State.fixByte_state]

@[simp] theorem State.slot_startByte (s : State) (p : Port) (a : Addr) (j : SlotNo) :
    (s.startByte p a).slot j = s.slot j := by
  simp [State.slot]

@[simp] theorem State.record_startByte (s : State) (p : Port) (a : Addr) (j : SlotNo) :
    (s.startByte p a).record j = s.record j := by
  simp [State.record, State.slot]

@[simp] theorem State.cell_startByte (s : State) (p : Port) (a : Addr) (j : CellNo) :
    (s.startByte p a).cell j = s.cell j := by
  simp [State.cell]

@[simp] theorem State.entry_startByte (s : State) (p : Port) (a : Addr) (j : EntryNo) :
    (s.startByte p a).entry j = s.entry j := by
  simp [State.entry]

/-- A read byte fixed changes its own port alone: the captures, and the transaction. -/
theorem State.port_startByte (s : State) (p q : Port) (a : Addr) :
    (s.startByte p a).port q =
      if q = p then
        { (s.port q).captured a s.generation s.etc with transaction := .read a (s.fixByte p a).2 }
      else s.port q := by
  simp [State.startByte, State.fixByte_state, State.port_updatePort_eq]

/-! ### Completing a read byte (R166) -/

/-- What the completion of a read byte leaves of its port. -/
@[simp] theorem PortUnit.completed_fields (u : PortUnit) (b : ReadByte) :
    (u.completed b).state = u.state ∧ (u.completed b).vote = u.vote ∧ (u.completed b).args = u.args ∧
      (u.completed b).result = u.result ∧ (u.completed b).rdata = u.rdata ∧ (u.completed b).openList = u.openList ∧
      (u.completed b).stagingPointer = u.stagingPointer ∧ (u.completed b).groupCounter = u.groupCounter ∧
      (u.completed b).fetchedSlot = u.fetchedSlot ∧ (u.completed b).header = u.header ∧
      (u.completed b).payload = u.payload ∧ (u.completed b).timeLatch = u.timeLatch ∧
      (u.completed b).genLatch = u.genLatch ∧ (u.completed b).filters = u.filters ∧ (u.completed b).prst = u.prst ∧
      (u.completed b).transaction = u.transaction := by
  unfold PortUnit.completed PortUnit.clearSticky
  (repeat' split) <;> simp

/-- The completion of a read byte changes nothing of a queue but its entries. -/
@[simp] theorem PortUnit.completed_queue (u : PortUnit) (b : ReadByte) :
    (u.completed b).queue.depth = u.queue.depth ∧ (u.completed b).queue.threshold = u.queue.threshold ∧
      (u.completed b).queue.accepting = u.queue.accepting ∧
      (u.completed b).queue.wakePending = u.queue.wakePending ∧ (u.completed b).queue.irq = u.queue.irq := by
  unfold PortUnit.completed PortUnit.clearSticky Queue.pop
  (repeat' split) <;> simp

/-- The entries after the completion of a read byte: a popped head, or as they were (R77). -/
theorem PortUnit.completed_entries (u : PortUnit) (b : ReadByte) :
    (u.completed b).queue.entries = u.queue.entries ∨ (u.completed b).queue.entries = u.queue.entries.tail := by
  unfold PortUnit.completed PortUnit.clearSticky Queue.pop
  (repeat' split) <;> simp

@[simp] theorem State.completeByte_fields (s : State) (p : Port) (a : Addr) (b : ReadByte) :
    (s.completeByte p a b).pending = s.pending ∧ (s.completeByte p a b).resetPin = s.resetPin ∧
      (s.completeByte p a b).ready = s.ready ∧ (s.completeByte p a b).mode = s.mode ∧
      (s.completeByte p a b).tickPeriod = s.tickPeriod ∧ (s.completeByte p a b).answerTimeout = s.answerTimeout ∧
      (s.completeByte p a b).orphanHold = s.orphanHold ∧ (s.completeByte p a b).generation = s.generation ∧
      (s.completeByte p a b).slots = s.slots ∧ (s.completeByte p a b).cells = s.cells ∧
      (s.completeByte p a b).free = s.free ∧ (s.completeByte p a b).detached = s.detached ∧
      (s.completeByte p a b).jobs = s.jobs ∧ (s.completeByte p a b).path = s.path ∧
      (s.completeByte p a b).lastGranted = s.lastGranted ∧ (s.completeByte p a b).requests = s.requests ∧
      (s.completeByte p a b).etc = s.etc ∧ (s.completeByte p a b).prescaler = s.prescaler ∧
      (s.completeByte p a b).scan = s.scan := by
  unfold State.completeByte
  simp only
  split <;> simp

@[simp] theorem State.slot_completeByte (s : State) (p : Port) (a : Addr) (b : ReadByte) (j : SlotNo) :
    (s.completeByte p a b).slot j = s.slot j := by
  simp [State.slot]

@[simp] theorem State.record_completeByte (s : State) (p : Port) (a : Addr) (b : ReadByte) (j : SlotNo) :
    (s.completeByte p a b).record j = s.record j := by
  simp [State.record, State.slot]

@[simp] theorem State.cell_completeByte (s : State) (p : Port) (a : Addr) (b : ReadByte) (j : CellNo) :
    (s.completeByte p a b).cell j = s.cell j := by
  simp [State.cell]

@[simp] theorem State.entry_completeByte (s : State) (p : Port) (a : Addr) (b : ReadByte) (j : EntryNo) :
    (s.completeByte p a b).entry j = s.entry j := by
  simp [State.entry]

@[simp] theorem State.port_completeByte_ne (s : State) {p q : Port} (a : Addr) (b : ReadByte) (h : q ≠ p) :
    (s.completeByte p a b).port q = s.port q := by
  unfold State.completeByte
  simp only
  split <;> simp [State.port_startByte, h]

/-- Everything the completion of a read byte of a row can do: nothing, or the completion of the byte that shifts. -/
theorem State.readByteOf_cases (s : State) (p : Port) (row : ReadRow) :
    s.readByteOf p row = s ∨
      ∃ a b, s.decodes p = true ∧ (s.port p).transaction = .read a b ∧ readRow a = row ∧
        s.readByteOf p row = s.completeByte p a b := by
  unfold State.readByteOf
  split
  · rename_i hd
    split
    · rename_i a b ht
      split
      · rename_i hr
        exact .inr ⟨a, b, hd, ht, hr, rfl⟩
      · exact .inl rfl
    all_goals exact .inl rfl
  · exact .inl rfl

/-! ### Completing a write byte (R166, R167) -/

/-- Everything the completion of a write byte of a row can do: nothing, or its effect with the address advanced. -/
theorem State.writeByteOf_cases (s : State) (p : Port) (row : WriteRow) (f : Addr → State → State) :
    s.writeByteOf p row f = s ∨
      ∃ a, s.decodes p = true ∧ (s.port p).transaction = .write a ∧ writeRow a = row ∧
        s.writeByteOf p row f =
          (f a s).updatePort p fun u => { u with transaction := .write (nextAddress a) } := by
  unfold State.writeByteOf
  split
  · rename_i hd
    split
    · rename_i a ht
      split
      · rename_i hr
        exact .inr ⟨a, hd, ht, hr, rfl⟩
      · exact .inl rfl
    all_goals exact .inl rfl
  · exact .inl rfl

/-- Everything a staging write can do: denied, written into the staging cell, or flagged as an overrun (R32 to R34). -/
theorem State.stageByte_cases (s : State) (p : Port) (v : Byte) :
    s.stageByte p v = s.denyStage p ∨
      ∃ k r c u, (s.port p).stagingPointer = some k ∧ s.record k = some r ∧ r.next = .staging c (some u) ∧
        (u.length < Config.payloadCapacity ∧
            s.stageByte p v =
              (s.setCell c { s.cell c with content := (s.cell c).content.stage u.length v }).setRecord k
                (some { r with next := .staging c (some { u with length := u.length + 1 }) }) ∨
          Config.payloadCapacity ≤ u.length ∧
            s.stageByte p v = s.setRecord k (some { r with next := .staging c (some { u with overrun := true }) })) := by
  unfold State.stageByte
  cases hp : (s.port p).stagingPointer with
  | none => exact .inl rfl
  | some k =>
    simp only [State.stageInto]
    cases hr : s.record k with
    | none => exact .inl rfl
    | some r =>
      cases hn : r.next with
      | owed c => exact .inl (by simp [hn])
      | staging c x =>
        cases x with
        | none => exact .inl (by simp [hn])
        | some u =>
          refine .inr ⟨k, r, c, u, rfl, hr, hn, ?_⟩
          by_cases hl : u.length < Config.payloadCapacity
          · exact .inl ⟨hl, by simp [hn, hl]⟩
          · exact .inr ⟨by omega, by simp [hn, hl]⟩

end Sys2Proof.Machine
end

