-- ==== Sys2Proof/Laws/Commits.lean ====
section
/-! SUPPORT. What the commit of one slot, and of a group, can do (R38 to R40, R44). -/

namespace Sys2Proof.Machine

/-- A commit of one slot happens exactly where an update is open on its staging cell; then it is these changes. -/
theorem State.commitSlot_some {s t : State} {p : Port} {now : Time} {tag : Option GroupTag} {k : SlotNo}
    {m : Published} :
    s.commitSlot p now tag k = some (t, m) ↔
      ∃ r c u, s.record k = some r ∧ r.next = .staging c (some u) ∧
        let content := (s.cell c).content.committed (nextSequence r.lastSequence) now u.length tag
        let watched := evaluateWatch r.watch content
        t = (State.updatePort
              ((s.setCell c { s.cell c with content := content }).setRecord k
                (some { r.rotated s c with
                        lastSequence := nextSequence r.lastSequence,
                        life := .produced .live p (deadlineOf r.period (now + r.period)), watch := watched.1 }))
              p fun x => x.dropOpen k).endEntriesOn k ∧
          m = { subject := s.subject k r, producer := p, sequence := nextSequence r.lastSequence, commitTime := now,
                byte0 := content.byteAt 0, byte1 := content.byteAt 1, recovered := r.life.isStale,
                limit := watched.2, answered := s.requestersOn k } := by
  unfold State.commitSlot
  constructor
  · intro h
    split at h
    · exact absurd h (by simp)
    · rename_i r hr
      split at h
      · exact absurd h (by simp)
      · exact absurd h (by simp)
      · rename_i c u hn
        simp only [Option.some.injEq, Prod.mk.injEq] at h
        exact ⟨r, c, u, hr, hn, h.1.symm, h.2.symm⟩
  · rintro ⟨r, c, u, hr, hn, ht, hm⟩
    simp only [hr, hn, ht, hm]

/-- A commit of one slot does not happen where no update is open. -/
theorem State.commitSlot_none {s : State} {p : Port} {now : Time} {tag : Option GroupTag} {k : SlotNo} :
    s.commitSlot p now tag k = none ↔ ∀ r, s.record k = some r → r.openUpdate = none := by
  unfold State.commitSlot Record.openUpdate
  cases hr : s.record k with
  | none => simp
  | some r => cases hn : r.next with
    | owed c => simp [hn]
    | staging c x => cases x <;> simp [hn]

/-- What the commit of one slot leaves. -/
theorem State.commitSlot_fields {s t : State} {p : Port} {now : Time} {tag : Option GroupTag} {k : SlotNo}
    {m : Published} (h : s.commitSlot p now tag k = some (t, m)) :
    t.pending = s.pending ∧ t.resetPin = s.resetPin ∧ t.ready = s.ready ∧ t.mode = s.mode ∧
      t.tickPeriod = s.tickPeriod ∧ t.answerTimeout = s.answerTimeout ∧ t.orphanHold = s.orphanHold ∧
      t.generation = s.generation ∧ t.free = s.free ∧ t.detached = s.detached ∧ t.jobs = s.jobs ∧ t.path = s.path ∧
      t.lastGranted = s.lastGranted ∧ t.etc = s.etc ∧ t.prescaler = s.prescaler ∧ t.scan = s.scan := by
  obtain ⟨r, c, u, -, -, rfl, -⟩ := State.commitSlot_some.mp h
  simp

/-- The ports after the commit of one slot: the slot leaves the open list and the pointer of its producer. -/
theorem State.commitSlot_port {s t : State} {p : Port} {now : Time} {tag : Option GroupTag} {k : SlotNo}
    {m : Published} (h : s.commitSlot p now tag k = some (t, m)) (q : Port) :
    t.port q = if q = p then (s.port q).dropOpen k else s.port q := by
  obtain ⟨r, c, u, -, -, rfl, -⟩ := State.commitSlot_some.mp h
  simp [State.port_updatePort_eq]

/-- The commit of one slot leaves every other record, every incarnation and every pin count. -/
theorem State.commitSlot_others {s t : State} {p : Port} {now : Time} {tag : Option GroupTag} {k : SlotNo}
    {m : Published} (h : s.commitSlot p now tag k = some (t, m)) :
    (∀ j, j ≠ k → t.record j = s.record j) ∧ (∀ j, (t.slot j).incarnation = (s.slot j).incarnation) ∧
      ∀ c, (t.cell c).pins = (s.cell c).pins := by
  obtain ⟨r, c, u, -, -, rfl, -⟩ := State.commitSlot_some.mp h
  refine ⟨fun j hj => by simp [hj], fun j => by simp, fun d => ?_⟩
  by_cases hd : d = c
  · subst hd; simp
  · simp [hd]

/-- What the commit of a group's members leaves. -/
theorem State.commitMembers_fields (p : Port) (now : Time) (tag : Option GroupTag) (ks : List SlotNo) (s : State) :
    (State.commitMembers p now tag ks s).1.pending = s.pending ∧
      (State.commitMembers p now tag ks s).1.resetPin = s.resetPin ∧
      (State.commitMembers p now tag ks s).1.ready = s.ready ∧ (State.commitMembers p now tag ks s).1.mode = s.mode ∧
      (State.commitMembers p now tag ks s).1.tickPeriod = s.tickPeriod ∧
      (State.commitMembers p now tag ks s).1.answerTimeout = s.answerTimeout ∧
      (State.commitMembers p now tag ks s).1.orphanHold = s.orphanHold ∧
      (State.commitMembers p now tag ks s).1.generation = s.generation ∧
      (State.commitMembers p now tag ks s).1.free = s.free ∧
      (State.commitMembers p now tag ks s).1.detached = s.detached ∧
      (State.commitMembers p now tag ks s).1.jobs = s.jobs ∧ (State.commitMembers p now tag ks s).1.path = s.path ∧
      (State.commitMembers p now tag ks s).1.lastGranted = s.lastGranted ∧
      (State.commitMembers p now tag ks s).1.etc = s.etc ∧
      (State.commitMembers p now tag ks s).1.prescaler = s.prescaler ∧
      (State.commitMembers p now tag ks s).1.scan = s.scan := by
  induction ks generalizing s with
  | nil => simp [State.commitMembers]
  | cons k ks ih =>
    rw [State.commitMembers]
    split
    · exact ih s
    · rename_i t m h
      have a := ih t
      have b := State.commitSlot_fields h
      simp only at a ⊢
      simp [a, b]

/-- The group's members, one after another: each is committed in the state the earlier ones left. -/
theorem State.commitMembers_cons {s t : State} {p : Port} {now : Time} {tag : Option GroupTag} {k : SlotNo}
    {m : Published} (ks : List SlotNo) (h : s.commitSlot p now tag k = some (t, m)) :
    State.commitMembers p now tag (k :: ks) s =
      ((State.commitMembers p now tag ks t).1, m :: (State.commitMembers p now tag ks t).2) := by
  simp [State.commitMembers, h]

end Sys2Proof.Machine
end

