-- ==== Sys2Proof/Laws/Notices.lean ====
section
/-! SUPPORT. What the Notice Queue Manager and a distribution event can do to a queue, a port and the state. -/

namespace Sys2Proof.Machine

/-! ### The settings of a queue stay -/

@[simp] theorem Queue.append_settings (q : Queue) (z : Bool) (ns : List Notice) :
    (q.append z ns).depth = q.depth ∧ (q.append z ns).threshold = q.threshold ∧
      (q.append z ns).accepting = q.accepting ∧ (q.append z ns).irq = q.irq := by
  simp [Queue.append]

@[simp] theorem Queue.drop_settings (q : Queue) (z : Bool) (t : Half) (k : Nat) (w : Bool) :
    (q.drop z t k w).depth = q.depth ∧ (q.drop z t k w).threshold = q.threshold ∧
      (q.drop z t k w).accepting = q.accepting ∧ (q.drop z t k w).irq = q.irq := by
  simp [Queue.drop]

@[simp] theorem Queue.byClass_settings (q : Queue) (z : Bool) (t : Half) (n : Notice) :
    (q.byClass z t n).depth = q.depth ∧ (q.byClass z t n).threshold = q.threshold ∧
      (q.byClass z t n).accepting = q.accepting ∧ (q.byClass z t n).irq = q.irq := by
  unfold Queue.byClass
  split <;> simp

/-- Everything a decision can do: discard, append, merge one entry, or drop and count (R69 to R75, R81). -/
theorem Queue.decideOne_cases (z h : Bool) (t : Half) (q : Queue) (x : Handed) :
    q.accepting = false ∧ q.decideOne z h t x = q ∨
      (∃ ns, q.fill + ns.length ≤ q.threshold ∧ q.decideOne z h t x = q.append z ns) ∨
      (∃ n, q.fill < q.classLimit n.cls ∧ q.decideOne z h t x = q.append z [n]) ∨
      (∃ n i, q.decideOne z h t x = { q with entries := mergeAt n i q.entries }) ∨
      ∃ k w, q.decideOne z h t x = q.drop z t k w := by
  cases ha : q.accepting with
  | false => exact .inl ⟨rfl, by simp [Queue.decideOne, ha]⟩
  | true =>
    refine .inr ?_
    cases x with
    | block ns =>
      by_cases hf : q.fill + ns.length ≤ q.threshold
      · exact .inl ⟨ns, hf, by simp [Queue.decideOne, ha, hf]⟩
      · exact .inr (.inr (.inr ⟨ns.length, false, by simp [Queue.decideOne, ha, hf]⟩))
    | one n =>
      cases hm : (if n.coalescible then coalescingTarget h n q.entries else none) with
      | some i => exact .inr (.inr (.inl ⟨n, i, by simp [Queue.decideOne, ha, hm]⟩))
      | none =>
        have e : q.decideOne z h t (.one n) = q.byClass z t n := by simp [Queue.decideOne, ha, hm]
        by_cases hf : q.fill < q.classLimit n.cls
        · exact .inr (.inl ⟨n, hf, by simp [e, Queue.byClass, hf]⟩)
        · exact .inr (.inr (.inr ⟨1, n.wake, by simp [e, Queue.byClass, hf]⟩))

@[simp] theorem Queue.decideOne_settings (z h : Bool) (t : Half) (q : Queue) (x : Handed) :
    (q.decideOne z h t x).depth = q.depth ∧ (q.decideOne z h t x).threshold = q.threshold ∧
      (q.decideOne z h t x).accepting = q.accepting ∧ (q.decideOne z h t x).irq = q.irq := by
  rcases Queue.decideOne_cases z h t q x with ⟨-, e⟩ | ⟨ns, -, e⟩ | ⟨n, -, e⟩ | ⟨n, i, e⟩ | ⟨k, w, e⟩ <;> rw [e] <;> simp

/-- A queue that is DISCARDING stays as it is (R81). -/
@[simp] theorem Queue.decideOne_discarding {q : Queue} (ha : q.accepting = false) (z h : Bool) (t : Half)
    (x : Handed) : q.decideOne z h t x = q := by
  simp [Queue.decideOne, ha]

/-! ### The entries after a drop and after a merge (R71, R75) -/

/-- A drop always leaves an OVERFLOW notice as the newest entry. -/
theorem countDrop_last (k : Nat) (w : Bool) (t : Half) (es : List Notice) :
    ∃ n, (countDrop k w t es).getLast? = some n ∧ n.kind = .overflow := by
  induction es with
  | nil => exact ⟨_, rfl, rfl⟩
  | cons x es ih =>
    cases es with
    | nil =>
      by_cases hx : x.kind = .overflow
      · exact ⟨{ x with value := raiseCount x.value k, wake := x.wake || w }, by simp [countDrop, hx], hx⟩
      · exact ⟨overflowNotice (raiseCount 0 k) w t, by simp [countDrop, hx], rfl⟩
    | cons y es =>
      obtain ⟨n, hn, hk⟩ := ih
      refine ⟨n, ?_, hk⟩
      rw [countDrop, List.getLast?_cons, hn]
      rfl

/-- A drop lengthens the queue by one entry, unless its newest entry was an OVERFLOW notice already. -/
theorem countDrop_length (k : Nat) (w : Bool) (t : Half) (es : List Notice) :
    (countDrop k w t es).length =
      if (es.getLast?.map fun n => n.kind) = some .overflow then es.length else es.length + 1 := by
  induction es with
  | nil => rfl
  | cons x es ih =>
    cases es with
    | nil => by_cases hx : x.kind = .overflow <;> simp [countDrop, hx]
    | cons y es =>
      rw [countDrop, List.length_cons, ih, List.getLast?_cons_cons]
      split <;> simp

@[simp] theorem mergeAt_length (n : Notice) (i : Nat) (es : List Notice) : (mergeAt n i es).length = es.length := by
  induction es generalizing i with
  | nil => cases i <;> rfl
  | cons x es ih => cases i <;> simp [mergeAt, ih]

/-- A merge changes no kind: the newest entry is an OVERFLOW notice after it if it was before. -/
theorem mergeAt_kinds (n : Notice) (i : Nat) (es : List Notice) :
    (mergeAt n i es).map (fun x => x.kind) = es.map fun x => x.kind := by
  induction es generalizing i with
  | nil => cases i <;> rfl
  | cons x es ih => cases i <;> simp [mergeAt, ih, Notice.mergedWith]

/-- The newest entry is an OVERFLOW notice, told by the kinds alone. -/
theorem Queue.newestIsOverflow_iff (q : Queue) :
    q.newestIsOverflow = true ↔ (q.entries.map fun x => x.kind).getLast? = some .overflow := by
  unfold Queue.newestIsOverflow
  rw [List.getLast?_map]
  cases q.entries.getLast? <;> simp

/-- The law of R70 is kept by every decision. -/
theorem Queue.law_decideOne {q : Queue} (hq : q.law) (z h : Bool) (t : Half) (x : Handed) :
    (q.decideOne z h t x).law := by
  obtain ⟨hd, ht, htd, hi, hid, hf, ho⟩ := hq
  have hd16 : 16 ≤ q.depth := hd.1
  refine ⟨by simpa using hd, by simpa using ht, by simpa using htd, by simpa using hi, by simpa using hid, ?_⟩
  rcases Queue.decideOne_cases z h t q x with ⟨-, e⟩ | ⟨ns, hl, e⟩ | ⟨n, hl, e⟩ | ⟨n, i, e⟩ | ⟨k, w, e⟩ <;> rw [e]
  · exact ⟨hf, ho⟩
  · have : (q.append z ns).fill = q.fill + ns.length := by simp [Queue.fill, Queue.append]
    simp only [this, Queue.append_settings]
    exact ⟨by omega, fun hx => by omega⟩
  · have hc : q.classLimit n.cls ≤ q.depth - 1 := by cases n.cls <;> simp [Queue.classLimit, htd]
    have : (q.append z [n]).fill = q.fill + 1 := by simp [Queue.fill, Queue.append]
    simp only [this, Queue.append_settings]
    exact ⟨by omega, fun hx => by omega⟩
  · refine ⟨by simpa [Queue.fill] using hf, fun hx => ?_⟩
    rw [Queue.newestIsOverflow_iff, mergeAt_kinds, ← Queue.newestIsOverflow_iff]
    exact ho (by simpa [Queue.fill] using hx)
  · obtain ⟨n, hn, hk⟩ := countDrop_last k w t q.entries
    have hnew : (q.drop z t k w).newestIsOverflow = true := by
      simp [Queue.newestIsOverflow, Queue.drop, hn, hk]
    refine ⟨?_, fun _ => hnew⟩
    have hlen := countDrop_length k w t q.entries
    have hfill : (q.drop z t k w).fill = (countDrop k w t q.entries).length := rfl
    rw [hfill, hlen]
    split
    · simpa [Queue.fill] using hf
    · rename_i hno
      have : q.fill ≠ q.depth := fun hx => hno (by
        have := (Queue.newestIsOverflow_iff q).mp (ho hx)
        simpa [List.getLast?_map] using this)
      have hlt : q.entries.length < q.depth := by
        simp only [Queue.fill] at hf this
        omega
      simpa using hlt

/-! ### A distribution at a port and in the state (R56) -/

/-- A distribution changes nothing of a port but its queue. -/
@[simp] theorem PortUnit.receive_fields (u : PortUnit) (p : Port) (t : Half) (j : Job) :
    (u.receive p t j).state = u.state ∧ (u.receive p t j).vote = u.vote ∧ (u.receive p t j).args = u.args ∧
      (u.receive p t j).result = u.result ∧ (u.receive p t j).rdata = u.rdata ∧
      (u.receive p t j).openList = u.openList ∧ (u.receive p t j).stagingPointer = u.stagingPointer ∧
      (u.receive p t j).writeDenied = u.writeDenied ∧ (u.receive p t j).groupCounter = u.groupCounter ∧
      (u.receive p t j).fetch = u.fetch ∧ (u.receive p t j).fetchedSlot = u.fetchedSlot ∧
      (u.receive p t j).header = u.header ∧ (u.receive p t j).payload = u.payload ∧
      (u.receive p t j).valid = u.valid ∧ (u.receive p t j).underrun = u.underrun ∧
      (u.receive p t j).discarded = u.discarded ∧ (u.receive p t j).timeLatch = u.timeLatch ∧
      (u.receive p t j).genLatch = u.genLatch ∧ (u.receive p t j).filters = u.filters ∧
      (u.receive p t j).prst = u.prst ∧ (u.receive p t j).transaction = u.transaction := by
  simp [PortUnit.receive]

@[simp] theorem Queue.foldl_decideOne_settings (z h : Bool) (t : Half) (xs : List Handed) (q : Queue) :
    (xs.foldl (Queue.decideOne z h t) q).depth = q.depth ∧
      (xs.foldl (Queue.decideOne z h t) q).threshold = q.threshold ∧
      (xs.foldl (Queue.decideOne z h t) q).accepting = q.accepting ∧ (xs.foldl (Queue.decideOne z h t) q).irq = q.irq := by
  induction xs generalizing q with
  | nil => simp
  | cons x xs ih => simpa using ih (q.decideOne z h t x)

/-- A distribution keeps the settings of a queue. -/
@[simp] theorem PortUnit.receive_queueSettings (u : PortUnit) (p : Port) (t : Half) (j : Job) :
    (u.receive p t j).queue.depth = u.queue.depth ∧ (u.receive p t j).queue.threshold = u.queue.threshold ∧
      (u.receive p t j).queue.accepting = u.queue.accepting ∧ (u.receive p t j).queue.irq = u.queue.irq := by
  simp [PortUnit.receive]

/-- A distribution keeps the law of a queue (R70). -/
theorem PortUnit.law_receive {u : PortUnit} (h : u.queue.law) (p : Port) (t : Half) (j : Job) :
    (u.receive p t j).queue.law := by
  unfold PortUnit.receive
  generalize j.noticesFor u.filters p = xs
  simp only
  generalize u.queue = q at h
  induction xs generalizing q with
  | nil => exact h
  | cons x xs ih => exact ih _ (Queue.law_decideOne h _ _ _ x)

/-- A queue that is DISCARDING takes nothing of a distribution (R81). -/
theorem PortUnit.receive_discarding {u : PortUnit} (h : u.queue.accepting = false) (p : Port) (t : Half) (j : Job) :
    u.receive p t j = u := by
  have : ∀ (xs : List Handed) (z y : Bool), xs.foldl (Queue.decideOne z y t) u.queue = u.queue := by
    intro xs z y
    induction xs with
    | nil => rfl
    | cons x xs ih => simpa [h] using ih
  simp [PortUnit.receive, this]

@[simp] theorem State.distribute_fields (s : State) (x : Job) :
    (s.distribute x).pending = s.pending ∧ (s.distribute x).resetPin = s.resetPin ∧
      (s.distribute x).ready = s.ready ∧ (s.distribute x).mode = s.mode ∧
      (s.distribute x).tickPeriod = s.tickPeriod ∧ (s.distribute x).answerTimeout = s.answerTimeout ∧
      (s.distribute x).orphanHold = s.orphanHold ∧ (s.distribute x).generation = s.generation ∧
      (s.distribute x).slots = s.slots ∧ (s.distribute x).cells = s.cells ∧ (s.distribute x).free = s.free ∧
      (s.distribute x).detached = s.detached ∧ (s.distribute x).jobs = s.jobs ∧ (s.distribute x).path = s.path ∧
      (s.distribute x).lastGranted = s.lastGranted ∧ (s.distribute x).requests = s.requests ∧
      (s.distribute x).etc = s.etc ∧ (s.distribute x).prescaler = s.prescaler ∧ (s.distribute x).scan = s.scan := by
  simp [State.distribute]

@[simp] theorem State.slot_distribute (s : State) (x : Job) (j : SlotNo) : (s.distribute x).slot j = s.slot j := by
  simp [State.slot]

@[simp] theorem State.record_distribute (s : State) (x : Job) (j : SlotNo) :
    (s.distribute x).record j = s.record j := by
  simp [State.record, State.slot]

@[simp] theorem State.cell_distribute (s : State) (x : Job) (j : CellNo) : (s.distribute x).cell j = s.cell j := by
  simp [State.cell]

@[simp] theorem State.entry_distribute (s : State) (x : Job) (j : EntryNo) :
    (s.distribute x).entry j = s.entry j := by
  simp [State.entry]

@[simp] theorem State.port_distribute (s : State) (x : Job) (p : Port) :
    (s.distribute x).port p = (s.port p).receive p (low16 s.etc) x := by
  simp [State.distribute]

end Sys2Proof.Machine
end

