-- ==== Sys2Proof/Laws/Path.lean ====
section
/-! SUPPORT. What a grant of the transfer path and the routing of an unpinned cell depend on: two states that agree in
that are granted, and routed, alike. -/

namespace Sys2Proof.Machine

/-- Who waits for the path depends on the jobs, the holder and the fetch states alone (R101). -/
theorem State.waits_congr {v w : State} (jobs : v.jobs = w.jobs) (path : v.path = w.path)
    (fetch : ∀ q, (v.port q).fetch = (w.port q).fetch) : v.waits = w.waits := by
  funext r
  cases r with
  | du => simp [State.waits, jobs, path]
  | port p => simp [State.waits, fetch p]

/-- A grant sets the holder, the last granted requester and the copy phase of the requester granted (R94, R101). -/
theorem State.grantTo_granted (s : State) (r : Requester) :
    (s.grantTo r).path = some r ∧ (s.grantTo r).lastGranted = r ∧
      ∀ q, ((s.grantTo r).port q).fetch = if r = .port q then (s.port q).fetch.granted else (s.port q).fetch := by
  cases r with
  | du => exact ⟨rfl, rfl, fun q => by cases q <;> rfl⟩
  | port p => exact ⟨by cases p <;> rfl, by cases p <;> rfl, fun q => by cases p <;> cases q <;> rfl⟩

/-- States that agree in jobs, holder, last granted requester and fetch states are granted alike (R101). -/
theorem PathGranted.of_agree {v w : State} (jobs : v.jobs = w.jobs) (path : v.path = w.path)
    (last : v.lastGranted = w.lastGranted) (fetch : ∀ q, (v.port q).fetch = (w.port q).fetch) :
    PathGranted v w.grant := by
  unfold PathGranted State.grant
  rw [path, last, State.waits_congr jobs path fetch]
  split
  · exact ⟨path.symm, last.symm, fun q => (fetch q).symm⟩
  · split
    · rename_i r _
      obtain ⟨pv, lv, fv⟩ := State.grantTo_granted v r
      obtain ⟨pw, lw, fw⟩ := State.grantTo_granted w r
      exact ⟨pw.trans pv.symm, lw.trans lv.symm, fun q => by rw [fw, fv, fetch]⟩
    · exact ⟨path.symm, last.symm, fun q => (fetch q).symm⟩

/-- The grant of a state is granted from it. -/
theorem PathGranted.refl (s : State) : PathGranted s s.grant := ⟨rfl, rfl, fun _ => rfl⟩

/-- After a grant the path is held, or nobody waits: a second grant changes nothing (R101). -/
theorem State.grant_grant (s : State) : s.grant.grant = s.grant := by
  cases h : s.path with
  | some r => rw [State.grant_of_held h, State.grant_of_held h]
  | none =>
    rw [State.grant_of_free h]
    cases hf : s.lastGranted.orderAfter.find? s.waits with
    | some r => exact State.grant_of_held (State.grantTo_granted s r).1
    | none => simp only [State.grant_of_free h, hf]

/-! ### The routing of R9 -/

/-- The slot that owes a cell depends on which records owe it alone. -/
theorem State.slotOwing_congr {s u : State} {f : SlotNo → Record → Record} {c : CellNo}
    (record : ∀ k, u.record k = (s.record k).map (f k))
    (owed : ∀ k r, (f k r).next = .owed c ↔ r.next = .owed c) : u.slotOwing c = s.slotOwing c := by
  unfold State.slotOwing
  congr 1
  funext k
  rw [record k]
  cases s.record k with
  | none => rfl
  | some r => exact decide_eq_decide.mpr (owed k r)

/-- A change of records that keeps which cells are owed, and commutes with a settled debt, commutes with the routing of
a cell (R9). -/
theorem State.routeUnpinned_congr {s u : State} {f : SlotNo → Record → Record} {c : CellNo}
    (free : u.free = s.free) (detached : u.detached = s.detached)
    (record : ∀ k, u.record k = (s.record k).map (f k))
    (owed : ∀ k r, (f k r).next = .owed c ↔ r.next = .owed c)
    (settled : ∀ k r, r.next = .owed c → { f k r with next := .staging c none } = f k { r with next := .staging c none }) :
    (u.routeUnpinned c).free = (s.routeUnpinned c).free ∧ (u.routeUnpinned c).detached = (s.routeUnpinned c).detached ∧
      ∀ k, (u.routeUnpinned c).record k = ((s.routeUnpinned c).record k).map (f k) := by
  unfold State.routeUnpinned
  rw [State.slotOwing_congr record owed, detached, free]
  split
  · exact ⟨rfl, rfl, record⟩
  · cases hk : s.slotOwing c with
    | none => exact ⟨free, detached, record⟩
    | some k =>
      have hr := record k
      cases h : s.record k with
      | none =>
        rw [h, Option.map_none] at hr
        simp only [hr, h]
        exact ⟨free, detached, record⟩
      | some r =>
        rw [h, Option.map_some] at hr
        have hn : r.next = .owed c := by simpa [h] using List.find?_some hk
        simp only [hr, h]
        refine ⟨by simpa using free, by simpa using detached, fun j => ?_⟩
        by_cases e : j = k
        · subst e; simp [settled j r hn]
        · simp [e, record j]

/-- Such a change commutes with dropping a pin (R9). The closing of open updates is such a change (R36). -/
theorem State.unpinCell_congr {s u : State} {f : SlotNo → Record → Record} {c : CellNo}
    (cells : u.cells = s.cells) (free : u.free = s.free) (detached : u.detached = s.detached)
    (record : ∀ k, u.record k = (s.record k).map (f k))
    (owed : ∀ k r, (f k r).next = .owed c ↔ r.next = .owed c)
    (settled : ∀ k r, r.next = .owed c → { f k r with next := .staging c none } = f k { r with next := .staging c none }) :
    (u.unpinCell c).free = (s.unpinCell c).free ∧ (u.unpinCell c).detached = (s.unpinCell c).detached ∧
      ∀ k, (u.unpinCell c).record k = ((s.unpinCell c).record k).map (f k) := by
  have pins : (u.cell c).pins = (s.cell c).pins := by simp [State.cell, cells]
  unfold State.unpinCell
  simp only [pins]
  split
  · exact State.routeUnpinned_congr (by simpa using free) (by simpa using detached)
      (fun k => by simpa using record k) owed settled
  · exact ⟨by simpa using free, by simpa using detached, fun k => by simpa using record k⟩

end Sys2Proof.Machine
end

