-- ==== Sys2Proof/WellFormed.lean ====
section
/-! DEFINITION. Well-formed schedules. Every operand of a command has exactly the manual's width or names, so one
command alone is always well-formed (`Instr.wellFormed`). What can be ill-formed is a schedule of commands: a pin has
edges that alternate, and a byte comes inside a transaction, its address byte first (R149, R165, R166). -/

namespace Sys2Proof

/-- A command alone: its operands are typed, so nothing is left to check. -/
def Instr.wellFormed (_ : Instr) : Bool := true

/-- What the outside drives on one port: chip-select, whether the address byte has been shifted, and PRSTx. -/
structure PortLines where
  selected : Bool
  addressed : Bool
  prst : Bool
  deriving DecidableEq, Repr

/-- What the outside drives on the whole part. -/
structure Lines where
  reset : Bool
  a : PortLines
  b : PortLines
  c : PortLines
  d : PortLines
  deriving DecidableEq, Repr

/-- Every pin released, no transaction: the lines of `State.reset`. -/
def PortLines.released : PortLines := { selected := false, addressed := false, prst := false }

def Lines.released : Lines :=
  { reset := false, a := .released, b := .released, c := .released, d := .released }

def Lines.port (l : Lines) : Port → PortLines
  | .a => l.a
  | .b => l.b
  | .c => l.c
  | .d => l.d

def Lines.setPort (l : Lines) (p : Port) (x : PortLines) : Lines :=
  match p with
  | .a => { l with a := x }
  | .b => { l with b := x }
  | .c => { l with c := x }
  | .d => { l with d := x }

/-- How a command uses the lines. -/
inductive LineUse where
  | ownEvent
  | powerOn
  | reset (assert : Bool)
  | prst (p : Port) (assert : Bool)
  | select (p : Port) (assert : Bool)
  | address (p : Port)
  | data (p : Port)
  deriving DecidableEq, Repr

def Instr.lineUse : Instr → LineUse
  | .powerOn => .powerOn
  | .resetAssert => .reset true
  | .resetRelease => .reset false
  | .portsReady => .ownEvent
  | .prstxAssert p => .prst p true
  | .prstxRelease p => .prst p false
  | .chipSelectAssert p => .select p true
  | .chipSelectDeassert p => .select p false
  | .addressByte p _ => .address p
  | .argWrite p _ => .data p
  | .windowWriteIgnored p _ => .data p
  | .stageData p _ => .data p
  | .notice p => .data p
  | .readData p => .data p
  | .readHdr p => .data p
  | .statusRead p => .data p
  | .timeCapture p => .data p
  | .genCapture p => .data p
  | .join p _ => .data p
  | .leave p _ => .data p
  | .doze p _ => .data p
  | .go p _ => .data p
  | .runTransition => .ownEvent
  | .setExchange p _ => .data p
  | .setQueue p _ => .data p
  | .setFilter p _ => .data p
  | .clearFilter p _ => .data p
  | .setIrq p _ => .data p
  | .claim p _ => .data p
  | .release p _ => .data p
  | .adopt p _ => .data p
  | .lookup p _ => .data p
  | .openUpdate p _ => .data p
  | .selectStage p _ => .data p
  | .abandon p _ => .data p
  | .commit p _ => .data p
  | .commitGroup p _ => .data p
  | .setWatch p _ => .data p
  | .clearWatch p _ => .data p
  | .fetch p _ => .data p
  | .request p _ => .data p
  | .cancelRequest p _ => .data p
  | .tick => .ownEvent
  | .scanVisitSlot => .ownEvent
  | .scanVisitEntry => .ownEvent
  | .orphaning _ => .ownEvent
  | .distributionEvent => .ownEvent
  | .copyCompletion => .ownEvent

/-- One command on the lines: the lines after it, or none where the outside cannot produce it on those lines. -/
def Lines.take (l : Lines) (i : Instr) : Option Lines :=
  match i.lineUse with
  | .ownEvent => some l
  | .powerOn => some l
  | .reset on => if l.reset = on then none else some { l with reset := on }
  | .prst p on =>
    if (l.port p).prst = on then none else some (l.setPort p { l.port p with prst := on })
  | .select p on =>
    if (l.port p).selected = on then none
    else some (l.setPort p { l.port p with selected := on, addressed := false })
  | .address p =>
    if (l.port p).selected && !(l.port p).addressed then
      some (l.setPort p { l.port p with addressed := true })
    else none
  | .data p => if (l.port p).selected && (l.port p).addressed then some l else none

/-- A schedule is well-formed from given lines when every command in turn can be produced on the lines before it. -/
def Lines.schedule : Lines → List Instr → Bool
  | _, [] => true
  | l, i :: rest =>
    match l.take i with
    | none => false
    | some l' => l'.schedule rest

/-- A schedule that starts with every pin released. -/
def wellFormedSchedule (is : List Instr) : Bool := Lines.released.schedule is

end Sys2Proof
end

