-- ==== Sys2Proof/Tests/Slice0.lean ====
section
/-! SUPPORT. The model's own tests: ill-formed schedules that the check refuses; one or two small runs of one command
each; and, for every statement with hypotheses, states and operands that meet them all, clause by clause. -/

open Sys2Proof Sys2Proof.Machine

namespace Sys2Proof.Tests

set_option Elab.async false

/-! ### Ill-formed schedules are refused -/

theorem test_schedule_accepts : wellFormedSchedule [.resetAssert, .resetRelease, .portsReady, .chipSelectAssert .b,
    .addressByte .b 0x60, .join .b 0, .chipSelectDeassert .b, .prstxAssert .b, .prstxRelease .b] = true := by
  decide

theorem test_schedule_refuses_reset_twice : wellFormedSchedule [.resetAssert, .resetAssert] = false := by decide

theorem test_schedule_refuses_release_of_released_reset : wellFormedSchedule [.resetRelease] = false := by decide

theorem test_schedule_refuses_prstx_twice : wellFormedSchedule [.prstxAssert .c, .prstxAssert .c] = false := by decide

theorem test_schedule_refuses_release_of_released_prstx : wellFormedSchedule [.prstxRelease .c] = false := by decide

theorem test_schedule_refuses_select_twice :
    wellFormedSchedule [.chipSelectAssert .a, .chipSelectAssert .a] = false := by decide

theorem test_schedule_refuses_deselect_of_deselected : wellFormedSchedule [.chipSelectDeassert .a] = false := by
  decide

theorem test_schedule_refuses_address_unselected : wellFormedSchedule [.addressByte .d 0x00] = false := by decide

theorem test_schedule_refuses_two_addresses :
    wellFormedSchedule [.chipSelectAssert .d, .addressByte .d 0x10, .addressByte .d 0x10] = false := by decide

theorem test_schedule_refuses_data_without_address :
    wellFormedSchedule [.chipSelectAssert .a, .argWrite .a 1] = false := by decide

/-- A byte on one port needs that port's own transaction. -/
theorem test_schedule_refuses_data_of_other_port :
    wellFormedSchedule [.chipSelectAssert .a, .addressByte .a 0x60, .join .b 0] = false := by decide

/-! ### Small states -/

/-- The state a command leads to. -/
def after (i : Instr) (s : State) : State :=
  match exec i s with
  | .next t => t
  | .fault r => nomatch r
  | .refused _ => s

/-- The twelve ARG bytes that begin with these. -/
def argsOf (l : List Byte) : Vector Byte 12 := Vector.ofFn fun i : Fin 12 => l.getD i 0

/-- A port that has joined. -/
def joinedUnit : PortUnit := { PortUnit.reset with state := .active, queue := { PortUnit.reset.queue with accepting := true } }

/-- In SETUP: A and B have joined, C and D are OFFLINE. -/
def setup : State := { State.reset with ready := true, portA := joinedUnit, portB := joinedUnit }

/-- In RUN at ETC 1000: A, B and C have joined, D is OFFLINE. -/
def run : State :=
  { State.reset with ready := true, mode := .run, etc := 1000, portA := joinedUnit, portB := joinedUnit, portC := joinedUnit }

/-- The next write byte of the port is at an address. -/
def writing (s : State) (p : Port) (a : Addr) : State := s.updatePort p fun u => { u with transaction := .write a }

/-- The byte fixed at an address shifts out of the port. -/
def reading (s : State) (p : Port) (a : Addr) : State := s.startByte p a

/-- The next write byte of the port issues a command with these arguments. -/
def issuing (s : State) (p : Port) (c : Command) (l : List Byte) : State :=
  s.updatePort p fun u => { u with args := argsOf l, transaction := .write c.address }

/-- The content of a version of length 2, bytes 0AH 0BH. -/
def content1 : Content :=
  { sequence := 7, commitTime := 900, length := 2, payload := (Vector.replicate 32 0).set 0 0x0A |>.set 1 0x0B,
    tag := none }

/-- A LIVE record of port A, depth 2, last sequence 7: version in cell 0, staging cell 1, spare cell 2. -/
def liveRecord : Record :=
  { key := 0x050010, depth := 2, versions := [0], next := .staging 1 none, spares := [2], lastSequence := 7,
    period := 100, autoAnswer := false, life := .produced .live .a (some 1000), watch := none }

/-- A record under key 050010H in slot 3 with incarnation 4, over cells 0 to 2; the other cells are free. -/
def withRecord (s : State) (r : Record) : State :=
  { (s.setCell 0 { content := content1, pins := 0 }).setSlot 3 { incarnation := 4, record := some r } with
    free := (List.finRange 384).drop 3 }

/-- RUN with the LIVE record of port A. -/
def live : State := withRecord run liveRecord

/-- The LIVE record with its update open, of length 2, on port A's open list. -/
def openRecord : Record := { liveRecord with next := .staging 1 (some { length := 2, overrun := false }) }

def opened : State :=
  (withRecord run openRecord).updatePort .a fun u => { u with openList := [3], stagingPointer := some 3 }

/-- An orphan since ETC 950. -/
def orphanRecord : Record := { liveRecord with life := .orphaned 950 }

def orphan : State := withRecord run orphanRecord

/-- A request entry on slot 3, incarnation 4. -/
def entryOf (p : Port) : Entry := { requester := p, slot := 3, incarnation := 4, issueTime := 890, deadline := 990 }

/-- Sixteen jobs. -/
def full (s : State) : State := { s with jobs := List.replicate 16 (.mode 1 []) }

/-- What a port holds of the last command: its result code and RDATA. -/
def answer (s : State) (p : Port) : Byte × List Byte := ((s.port p).result.code, (s.port p).rdata.toList)

/-! ### Resets and pins -/

theorem test_powerOn :
    (after .powerOn { live with resetPin := true }).record 3 = none ∧
      (after .powerOn { live with resetPin := true }).mode = .setup ∧
      (after .powerOn { live with resetPin := true }).resetPin = true := by decide +kernel

theorem test_resetAssert :
    (after .resetAssert live).record 3 = none ∧ (after .resetAssert live).resetPin = true ∧
      ((after .resetAssert live).port .a).state = .offline := by decide +kernel

theorem test_resetRelease : (after .resetRelease { State.reset with resetPin := true }).resetPin = false := by
  decide +kernel

theorem test_portsReady :
    (after .portsReady State.reset).ready = true ∧
      (after .portsReady { State.reset with resetPin := true }).ready = false := by decide +kernel

/-- PRSTx on a producer: LEAVING, with its updates closed (R149, R156). -/
theorem test_prstxAssert :
    ((after (.prstxAssert .a) opened).port .a).state = .leaving ∧
      ((after (.prstxAssert .a) opened).port .a).openList = [] ∧
      (after (.prstxAssert .a) opened).record 3 = some liveRecord := by decide +kernel

theorem test_prstxRelease :
    ((after (.prstxRelease .b) (after (.prstxAssert .b) run)).port .b).prst = false ∧
      ((after (.prstxRelease .b) (after (.prstxAssert .b) run)).port .b).state = .offline := by decide +kernel

/-! ### The transaction -/

theorem test_chipSelectAssert :
    ((after (.chipSelectAssert .a) run).port .a).transaction = .address ∧
      ((after (.chipSelectAssert .a) State.reset).port .a).transaction = .ignored := by decide +kernel

theorem test_addressByte :
    ((after (.addressByte .a 0x10) (after (.chipSelectAssert .a) run)).port .a).transaction = .write 0x10 ∧
      ((after (.addressByte .a 0x8F) (after (.chipSelectAssert .a) run)).port .a).transaction =
        .read 0x0F { value := 0x22, effect := .none } := by decide +kernel

theorem test_chipSelectDeassert :
    ((after (.chipSelectDeassert .a) (writing run .a 0x11)).port .a).transaction = .idle := by decide +kernel

theorem test_argWrite :
    ((after (.argWrite .a 0x5A) (writing run .a 0x1B)).port .a).args[11] = 0x5A ∧
      ((after (.argWrite .a 0x5A) (writing run .a 0x1B)).port .a).transaction = .write 0x1C := by decide +kernel

theorem test_windowWriteIgnored :
    ((after (.windowWriteIgnored .a 0xFF) (writing run .a 0x2E)).port .a).transaction = .write 0x2E ∧
      ((after (.windowWriteIgnored .a 0xFF) (writing run .a 0x7F)).port .a).transaction = .write 0x00 := by
  decide +kernel

/-- A staged byte lands at the staged length; without a pointer WRITE_DENIED is set (R32, R33). -/
theorem test_stageData :
    ((after (.stageData .a 0xC8) (writing opened .a 0x2F)).cell 1).content.payload[2] = 0xC8 ∧
      ((after (.stageData .a 0xC8) (writing live .a 0x2F)).port .a).writeDenied = true := by decide +kernel

/-- A port whose queue holds one notice, with the eighth byte of its group shifting. -/
def lastNoticeByte : State :=
  run.updatePort .b fun u =>
    let n := Notice.plain .published 3 4 0x12 0x7A30
    let g : NoticeGroup := { image := n.image, held := true, index := 7 }
    { u with queue := { u.queue with entries := [n] }, transaction := .read 0x30 g.readByte }

theorem test_notice_pops : ((after (.notice .b) lastNoticeByte).port .b).queue.entries = [] := by decide +kernel

/-- The bytes of a notice (R173). -/
theorem test_notice_image :
    ({ Notice.plain .limit 3 4 0x0012 0x7A30 with wake := true, detail := 2 } : Notice).image.toList =
      [0x03, 0x03, 0x04, 0x12, 0x00, 0x12, 0x7A, 0x30] := by decide +kernel

/-- A port in READY with the version of slot 3 in its read buffer. -/
def ready (s : State) : State :=
  s.updatePort .b fun u =>
    { u with fetch := .ready, fetchedSlot := some 3, payload := [0x0A, 0x0B], valid := 2,
             header := { slot := 3, sequence := 7, commitTime := 900, length := 2, tag := some ⟨.c, 7⟩ } }

theorem test_readData :
    ((after (.readData .b) (reading (ready run) .b 0x2E)).port .b).transaction =
        .read 0x2E { value := 0x0B, effect := .consume } ∧
      ((after (.readData .b) (reading run .b 0x2E)).port .b).underrun = true := by decide +kernel

theorem test_readHdr :
    ((after (.readHdr .b) (reading (ready run) .b 0x2B)).port .b).transaction =
      .read 0x2C { value := 0x82, effect := .none } := by decide +kernel

/-- STATUS1 clears the flag it presented, and not the one set since (R171). -/
theorem test_statusRead :
    let s := reading (run.updatePort .b fun u => { u with underrun := true }) .b 0x01
    let t := after (.statusRead .b) (s.updatePort .b fun u => { u with discarded := true })
    (t.port .b).underrun = false ∧ (t.port .b).discarded = true := by decide +kernel

theorem test_timeCapture :
    ((after (.timeCapture .b) (reading { run with etc := 0x00017A30 } .b 0x1D)).port .b).timeLatch = 0x00017A30 := by
  decide +kernel

theorem test_genCapture :
    ((after (.genCapture .b) (reading { run with generation := 0x0104 } .b 0x1B)).port .b).transaction =
      .read 0x1C { value := 0x01, effect := .none } := by decide +kernel

/-! ### Life cycle, barrier and settings -/

theorem test_join :
    ((after (.join .d 0) (issuing run .d .join [])).port .d).state = .active ∧
      answer (after (.join .a 0) (issuing run .a .join [])) .a = (0x05, List.replicate 10 0) := by decide +kernel

theorem test_leave :
    ((after (.leave .b 0) (issuing live .b .leave [])).port .b).state = .offline ∧
      ((after (.leave .a 0) (issuing live .a .leave [])).port .a).state = .leaving := by decide +kernel

theorem test_doze :
    ((after (.doze .b 0) (issuing run .b .doze [])).port .b).state = .doze ∧
      answer (after (.doze .b 0) (issuing setup .b .doze [])) .b = (0x06, List.replicate 10 0) := by decide +kernel

/-- The last vote starts RUN with a MODE job (R161, R162). -/
theorem test_go :
    let s := after (.go .a 0) (issuing setup .a .go [0, 1])
    s.mode = .setup ∧ (after (.go .b 0) (issuing s .b .go [0, 1])).mode = .run ∧
      (after (.go .b 0) (issuing s .b .go [0, 1])).jobs = [.mode 1 [.a, .b]] := by decide +kernel

theorem test_runTransition :
    (after .runTransition (setup.updatePorts fun _ u => { u with vote := true })).mode = .run ∧
      (after .runTransition setup).mode = .setup := by decide +kernel

theorem test_setExchange :
    let t := after (.setExchange .a 0) (issuing setup .a .setExchange [0, 0, 100, 1, 0, 0, 0])
    t.tickPeriod = .us1 ∧ t.orphanHold = 16777216 ∧ t.generation = 2 ∧
      answer t .a = (0x01, [0, 2, 0, 0, 0, 0, 0, 0, 0, 0]) := by decide +kernel

theorem test_setQueue :
    ((after (.setQueue .a 0) (issuing setup .a .setQueue [64, 48])).port .a).queue.depth = 64 ∧
      answer (after (.setQueue .a 0) (issuing setup .a .setQueue [24, 8])) .a = (0x07, List.replicate 10 0) := by
  decide +kernel

theorem test_setFilter :
    let t := after (.setFilter .b 0) (issuing run .b .setFilter [7, 5, 0, 0, 0xFF, 0xFF, 0, 0x09])
    (t.port .b).filters[7] =
      { enabled := true, key := 0x050000, mask := 0xFFFF00,
        options := { pub := true, coalesce := false, inlined := false, status := true, limits := false,
                     wake := false } } := by decide +kernel

theorem test_clearFilter :
    answer (after (.clearFilter .b 0) (issuing run .b .clearFilter [8])) .b = (0x07, List.replicate 10 0) := by
  decide +kernel

theorem test_setIrq :
    ((after (.setIrq .b 0) (issuing run .b .setIrq [0, 1, 0, 32])).port .b).queue.irq =
      { urgent := false, level := true, fetch := false, levelAt := 32 } := by decide +kernel

/-! ### Records -/

theorem test_claim :
    let t := after (.claim .b 0) (issuing live .b .claim [0, 0, 9, 6, 0, 0, 0, 50, 1])
    t.record 0 = some
        { key := 9, depth := 6, versions := [], next := .staging 3 none, spares := [4, 5, 6, 7, 8, 9],
          lastSequence := 0, period := 50, autoAnswer := true, life := .produced .claimed .b (some 1100),
          watch := none } ∧
      answer t .b = (0x01, [0, 1, 0, 0, 0, 0, 0, 0, 0, 0]) := by decide +kernel

theorem test_claim_key_in_use :
    answer (after (.claim .b 0) (issuing live .b .claim [5, 0, 0x10, 1])) .b = (0x0A, List.replicate 10 0) := by
  decide +kernel

theorem test_release :
    let t := after (.release .a 0) (issuing opened .a .release [3, 4])
    t.record 3 = none ∧ t.free.length = 384 ∧ (t.port .a).openList = [] ∧
      t.jobs = [.withdraw ⟨0x050010, 3, 4⟩ 7 1000 []] := by decide +kernel

theorem test_adopt :
    let t := after (.adopt .b 0) (issuing orphan .b .adopt [5, 0, 0x10])
    (t.record 3).map (fun r => r.life) = some (.produced .stale .b (some 1200)) := by decide +kernel

theorem test_lookup :
    answer (after (.lookup .b 0) (issuing live .b .lookup [5, 0, 0x10])) .b =
        (0x01, [3, 4, 2, 0, 2, 1, 0, 0, 0, 7]) ∧
      answer (after (.lookup .b 0) (issuing live .b .lookup [5, 0, 0x11])) .b =
        (0x01, [0xFF, 0, 0, 0, 0, 0, 0, 0, 0, 0]) := by decide +kernel

theorem test_orphaning :
    let t := after (.orphaning .a) (live.updatePort .a fun u => { u with state := .leaving })
    t.record 3 = some { liveRecord with life := .orphaned 1000 } ∧ (t.port .a).state = .offline ∧
      t.jobs = [.orphan ⟨0x050010, 3, 4⟩ 7 1000 []] := by decide +kernel

/-! ### Updates and commits -/

theorem test_openUpdate :
    ((after (.openUpdate .a 0) (issuing live .a .openUpdate [3, 4])).port .a).openList = [3] ∧
      answer (after (.openUpdate .b 0) (issuing live .b .openUpdate [3, 4])) .b = (0x0C, List.replicate 10 0) := by
  decide +kernel

theorem test_selectStage :
    answer (after (.selectStage .a 0) (issuing opened .a .selectStage [3, 4])) .a =
      (0x01, [2, 0, 0, 0, 0, 0, 0, 0, 0, 0]) := by decide +kernel

theorem test_abandon :
    (after (.abandon .a 0) (issuing opened .a .abandon [3, 4])).record 3 = some liveRecord := by decide +kernel

/-- The version list fills, and the spare cell becomes the staging cell (R11, R39). -/
theorem test_commit :
    let t := after (.commit .a 0) (issuing opened .a .commit [3, 4])
    t.record 3 = some { liveRecord with
        versions := [0, 1], next := .staging 2 none, spares := [], lastSequence := 8,
        life := .produced .live .a (some 1100) } ∧
      answer t .a = (0x01, [0, 0, 0, 8, 0, 0, 0x03, 0xE8, 0, 0]) := by decide +kernel

/-- In a full list the oldest version leaves; pinned, it is owed (R11). -/
theorem test_commit_owed :
    let s := { opened.setCell 0 { content := content1, pins := 1 } with
      slots := opened.slots.set 3 { incarnation := 4, record := some { openRecord with depth := 1, spares := [] } } }
    (((after (.commit .a 0) (issuing s .a .commit [3, 4])).record 3).map fun r => (r.versions, r.next)) =
      some ([1], .owed 0) := by decide +kernel

theorem test_commitGroup :
    let t := after (.commitGroup .a 0) (issuing opened .a .commitGroup [])
    ((t.cell 1).content.tag, (t.port .a).groupCounter, (t.port .a).openList) = (some ⟨.a, 1⟩, 1, []) ∧
      answer t .a = (0x01, [1, 1, 0, 0, 0x03, 0xE8, 0, 0, 0, 0]) := by decide +kernel

/-! ### Watch, fetch and requests -/

/-- Low limit -500, high limit 500, signed 16-bit field at offset 2 (R122, R123). -/
theorem test_setWatch :
    let t := after (.setWatch .a 0) (issuing live .a .setWatch [3, 4, 2, 16, 1, 0xFE, 0x0C, 0x01, 0xF4, 1])
    (t.record 3).map (fun r => r.watch) =
      some (some { offset := 2, width := .bits16, signed := true, low := -500, high := 500, confirm := 1,
                   state := .inside, candidate := .inside, run := 0 }) := by decide +kernel

theorem test_clearWatch :
    answer (after (.clearWatch .a 0) (issuing live .a .clearWatch [3, 4])) .a = (0x01, List.replicate 10 0) ∧
      answer (after (.clearWatch .a 0) (issuing live .a .clearWatch [64, 4])) .a = (0x07, List.replicate 10 0) := by
  decide +kernel

theorem test_fetch :
    let t := after (.fetch .b 0) (issuing live .b .fetch [3, 4, 2, 0, 7])
    (t.cell 0).pins = 1 ∧ (t.port .b).fetch = .inFlight .copying 0 ∧ t.path = some (.port .b) ∧
      answer t .b = (0x01, [0, 0, 0, 7, 0, 0, 0, 0, 0, 0]) := by decide +kernel

theorem test_copyCompletion :
    let t := after .copyCompletion (after (.fetch .b 0) (issuing live .b .fetch [3, 4, 0]))
    (t.port .b).payload = [0x0A, 0x0B] ∧ (t.port .b).valid = 2 ∧ (t.port .b).fetch = .ready ∧
      (t.cell 0).pins = 0 ∧ t.path = none := by decide +kernel

theorem test_request :
    let t := after (.request .b 0) (issuing live .b .request [3, 4])
    (t.entry 0).map (fun e => (e.requester, e.deadline)) = some (.b, 1100) ∧
      t.jobs = [.requestFwd ⟨0x050010, 3, 4⟩ .a 7 1000] ∧
      answer t .b = (0x01, [2, 0, 0, 0x04, 0x4C, 1, 0, 0, 0, 0]) := by decide +kernel

theorem test_request_at_once :
    let s := withRecord run { liveRecord with autoAnswer := true }
    let t := after (.request .b 0) (issuing s .b .request [3, 4])
    t.entry 0 = none ∧ t.jobs = [.answerNow ⟨0x050010, 3, 4⟩ .b 7 900 0x0A 0x0B] := by decide +kernel

theorem test_cancelRequest :
    let s := live.setEntry 5 (some (entryOf .b))
    (after (.cancelRequest .b 0) (issuing s .b .cancelRequest [3, 4])).entry 5 = none ∧
      answer (after (.cancelRequest .c 0) (issuing s .c .cancelRequest [3, 4])) .c = (0x17, List.replicate 10 0) := by
  decide +kernel

/-! ### The part's own events -/

theorem test_tick :
    (after .tick { run with etc := 0xFFFFFFFF }).etc = 0 ∧ (after .tick { setup with etc := 5 }).etc = 5 := by
  decide +kernel

/-- The deadline 1000 is reached at ETC 1000 (R107, R112). -/
theorem test_scanVisitSlot :
    let t := after .scanVisitSlot { live with scan := 3 }
    (t.record 3).map (fun r => r.life) = some (.produced .stale .a (some 1000)) ∧ t.scan = 4 := by decide +kernel

/-- The deadline 990 is reached, past the last position of the scan (R109, R140). -/
theorem test_scanVisitEntry :
    let t := after .scanVisitEntry { live.setEntry 15 (some (entryOf .b)) with scan := 79 }
    t.entry 15 = none ∧ t.scan = 0 ∧ t.jobs = [.requestEnd ⟨0x050010, 3, 4⟩ .b 7 1000] := by decide +kernel

/-- A MODE job reaches the ports it lists, and no other (R65). -/
theorem test_distributionEvent :
    let t := after .distributionEvent { run with jobs := [.mode 1 [.a]], path := some .du, lastGranted := .du }
    (t.port .a).queue.entries.map (fun n => (n.kind, n.slot, n.value, n.wake)) = [(.mode, 0xFF, 1, true)] ∧
      (t.port .b).queue.entries = [] ∧ t.path = none := by decide +kernel

/-! ### Premises, checked -/

theorem writes_of {s : State} {p : Port} {a : Addr}
    (h : s.resetPin = false ∧ (s.port p).prst = false ∧ (s.port p).transaction = .write a) : s.WritesAt p a := h

theorem reads_of {s : State} {p : Port} {a : Addr} {b : ReadByte}
    (h : s.resetPin = false ∧ (s.port p).prst = false ∧ (s.port p).transaction = .read a b) : s.ReadsAt p a b := h

theorem issues_of {s : State} {p : Port} {c : Command}
    (h : s.resetPin = false ∧ (s.port p).prst = false ∧ (s.port p).transaction = .write c.address) : s.Issues p c := h

theorem joined_of {s : State} {p : Port} (h : (s.port p).state = .active ∨ (s.port p).state = .doze) : s.Joined p := h

theorem not_joined_of {s : State} {p : Port} (h : ¬ ((s.port p).state = .active ∨ (s.port p).state = .doze)) :
    ¬ s.Joined p := h

theorem slot_of {s : State} {p : Port} {c : Command}
    (h : (s.resetPin = false ∧ (s.port p).prst = false ∧ (s.port p).transaction = .write c.address) ∧
      ((s.port p).state = .active ∨ (s.port p).state = .doze) ∧ s.mode = .run) : s.SlotCommand p c := h

theorem names_of {s : State} {p : Port} {k : SlotNo} {r : Record}
    (h : ((s.port p).args[0]).toNat = k.val ∧ s.record k = some r ∧ (s.slot k).incarnation = (s.port p).args[1]) :
    s.Names p k r := h

/-- A property of every record, checked slot by slot. -/
theorem records_of {s : State} {P : SlotNo → Record → Prop} [∀ k r, Decidable (P k r)]
    (h : ∀ k : SlotNo, (s.record k).all (fun r => decide (P k r)) = true) : ∀ k, ∀ r ∈ s.record k, P k r := by
  intro k r hr
  have := h k
  rw [Option.mem_def.mp hr] at this
  simpa using this

/-- A property of every request entry, checked position by position. -/
theorem entries_of {s : State} {P : EntryNo → Entry → Prop} [∀ i e, Decidable (P i e)]
    (h : ∀ i : EntryNo, (s.entry i).all (fun e => decide (P i e)) = true) : ∀ i, ∀ e ∈ s.entry i, P i e := by
  intro i e he
  have := h i
  rw [Option.mem_def.mp he] at this
  simpa using this

/-- A dozing port. -/
def dozing (s : State) (p : Port) : State := s.updatePort p fun u => { u with state := .doze }

/-- A port in LEAVING. -/
def leaving (s : State) (p : Port) : State := s.updatePort p fun u => { u with state := .leaving }

/-! ### The premises of every statement can be met -/

theorem witness_TicksAndClockCycles :
    setup.mode = .setup ∧ run.mode = .run ∧ setup.pending = [] ∧ run.pending = [] ∧
      15998 + 1 < run.tickPeriod.cycles ∧ run.tickPeriod.cycles ≤ 15999 + 1 := by decide +kernel

theorem witness_ResetGivesTheResetState : run.resetPin = false := by decide +kernel

theorem witness_ReleasesAndPrstxOutsideTheExchange :
    run.resetPin = false ∧ ({ run with resetPin := true } : State).resetPin = true ∧
      ((run.port .d).prst = false ∧ ¬ run.Joined .d) ∧
      (((leaving live .a).port .a).prst = false ∧ ¬ (leaving live .a).Joined .a) :=
  ⟨by decide +kernel, rfl, ⟨by decide +kernel, not_joined_of (by decide +kernel)⟩, by decide +kernel,
    not_joined_of (by decide +kernel)⟩

/-- From ACTIVE and from DOZE; and in SETUP with the vote of the only other ACTIVE port cast, so that the barrier
holds. -/
theorem witness_LeaveAndPrstxMakeTheLeavingEntry :
    ((issuing opened .a .leave []).Issues .a .leave ∧ (issuing opened .a .leave []).Joined .a) ∧
      ((dozing opened .a).Joined .a ∧ ((dozing opened .a).port .a).prst = false) ∧
      (let s := issuing (setup.updatePort .b fun u => { u with vote := true }) .a .leave []
       s.Issues .a .leave ∧ s.Joined .a ∧ s.mode = .setup ∧ s.otherActive .a = [.b] ∧ (s.port .b).vote = true ∧
         s.jobs.length < 16) :=
  ⟨⟨issues_of (by decide +kernel), joined_of (by decide +kernel)⟩, ⟨joined_of (by decide +kernel), by decide +kernel⟩,
    issues_of (by decide +kernel), joined_of (by decide +kernel), by decide +kernel⟩

theorem witness_IgnoredPinsTakeNoByte :
    (Instr.claim .b 0).byteOf = some .b ∧
      ({ issuing run .b .claim [] with resetPin := true } : State).resetPin = true ∧
      (((issuing run .b .claim []).updatePort .b fun u => { u with prst := true }).port .b).prst = true := by
  decide +kernel

/-- The address bytes 7FH and 80H stand on the two sides of the direction bit. -/
theorem witness_ChipSelectAndAddressByte :
    ((run.port .a).transaction = .idle ∧ run.resetPin = false ∧ (run.port .a).prst = false ∧ run.ready = true) ∧
      ((State.reset.port .a).transaction = .idle ∧ State.reset.ready = false) ∧
      (((after (.prstxAssert .a) run).port .a).transaction = .idle ∧
        ((after (.prstxAssert .a) run).port .a).prst = true) ∧
      (((after (.chipSelectAssert .a) run).port .a).transaction = .address ∧
        (0x7F : Byte).toNat < 128 ∧ 128 ≤ (0x80 : Byte).toNat) := by decide +kernel

theorem witness_WindowPresents :
    (run.port .b).valid = 0 ∧ 0 < ((ready run).port .b).valid ∧ 0x30 < (0x31 : Addr).toNat ∧ 0x30 < (0x7F : Addr).toNat ∧
      (∀ a ∈ ([0x00, 0x02, 0x2C, 0x2F, 0x31, 0x7F] : List Addr), a ∉ ([0x01, 0x2D, 0x2E, 0x30] : List Addr)) := by
  decide +kernel

/-- Argument bytes 0 and 11; ignored addresses at both ends of each range. -/
theorem witness_ArgumentAndIgnoredWrites :
    (writing run .a 0x10).WritesAt .a (BitVec.ofNat 7 (0x10 + (0 : Fin 12).val)) ∧
      (writing run .a 0x1B).WritesAt .a (BitVec.ofNat 7 (0x10 + (11 : Fin 12).val)) ∧
      ∀ a ∈ ([0x00, 0x0F, 0x1C, 0x2E, 0x30, 0x5F, 0x77, 0x7F] : List Addr), (writing run .a a).WritesAt .a a ∧
        (a.toNat < 0x10 ∨ 0x1C ≤ a.toNat ∧ a.toNat < 0x60 ∧ a ≠ 0x2F ∨ 0x77 ≤ a.toNat) := by
  refine ⟨writes_of (by decide +kernel), writes_of (by decide +kernel), ?_⟩
  intro a ha
  refine ⟨writes_of ?_, ?_⟩ <;> revert a <;> decide +kernel

/-- The slot-3 record with an update of a staged length. -/
def stagedAt (n : Nat) : State :=
  writing ((withRecord run { openRecord with next := .staging 1 (some { length := n, overrun := false }) }).updatePort .a
    fun u => { u with openList := [3], stagingPointer := some 3 }) .a 0x2F

theorem witness_StageDataIsTaken :
    ((writing live .a 0x2F).WritesAt .a 0x2F ∧ ((writing live .a 0x2F).port .a).stagingPointer = none) ∧
      ((stagedAt 31).WritesAt .a 0x2F ∧ ((stagedAt 31).port .a).stagingPointer = some 3 ∧
        ((stagedAt 31).record 3).map (fun r => r.next) = some (.staging 1 (some { length := 31, overrun := false }))) ∧
      ((stagedAt 32).WritesAt .a 0x2F ∧ ((stagedAt 32).port .a).stagingPointer = some 3 ∧
        ((stagedAt 32).record 3).map (fun r => r.next) = some (.staging 1 (some { length := 32, overrun := false }))) :=
  ⟨⟨writes_of (by decide +kernel), by decide +kernel⟩, ⟨writes_of (by decide +kernel), by decide +kernel⟩,
    writes_of (by decide +kernel), by decide +kernel⟩

/-- A group of a port, at one of its bytes. -/
def groupAt (g : NoticeGroup) : State := run.updatePort .b fun u => { u with transaction := .read 0x30 g.readByte }

/-- Bytes 6 and 7 of a group that holds a head entry, and byte 7 of an EMPTY group. -/
theorem witness_NoticeBytesPop :
    (run.port .b).queue.entries = [] ∧ (lastNoticeByte.port .b).queue.entries.head? ≠ none ∧
      ∀ g ∈ [({ image := emptyImage, held := true, index := 6 } : NoticeGroup),
          { image := emptyImage, held := true, index := 7 }, { image := emptyImage, held := false, index := 7 }],
        (groupAt g).ReadsAt .b 0x30 g.readByte ∧ g.readByte.effect = .noticeByte g := by
  refine ⟨by decide +kernel, by decide +kernel, ?_⟩
  intro g hg
  refine ⟨reads_of ?_, rfl⟩
  revert g
  decide +kernel

/-- The read buffer with some payload bytes unread, a READ_DATA byte shifting out. -/
def unread (n : Nat) : State := reading ((ready run).updatePort .b fun u => { u with valid := n }) .b 0x2E

theorem witness_ReadBytes_data :
    ((unread 2).ReadsAt .b 0x2E { value := 0x0A, effect := .consume } ∧ 1 < ((unread 2).port .b).valid) ∧
      ((unread 1).ReadsAt .b 0x2E { value := 0x0B, effect := .consume } ∧ ((unread 1).port .b).valid = 1 ∧
        ((unread 1).port .b).fetch = .ready) ∧
      (reading run .b 0x2E).ReadsAt .b 0x2E { value := 0, effect := .underrun } :=
  ⟨⟨reads_of (by decide +kernel), by decide +kernel⟩, ⟨reads_of (by decide +kernel), by decide +kernel⟩,
    reads_of (by decide +kernel)⟩

/-- A byte without effect at the first and last address of each row. -/
theorem witness_ReadBytes_plain :
    ∀ a ∈ ([0x00, 0x02, 0x1A, 0x2F, 0x31, 0x7F, 0x1B, 0x1C, 0x1D, 0x21, 0x22, 0x2D] : List Addr),
      (reading run .b a).ReadsAt .b a (run.fixByte .b a).2 ∧ (run.fixByte .b a).2.effect = .none ∧
        ((a.toNat < 0x1B ∨ a = 0x2F ∨ 0x30 < a.toNat) ∨ (a = 0x1B ∨ a = 0x1C) ∨
          (0x1D ≤ a.toNat ∧ a.toNat ≤ 0x21) ∨ (0x22 ≤ a.toNat ∧ a.toNat ≤ 0x2D)) := by
  intro a ha
  refine ⟨reads_of ?_, ?_⟩ <;> revert a <;> decide +kernel

/-- A delivered version of length 0. -/
def readyEmpty : State :=
  reading (run.updatePort .b fun u => { u with fetch := .ready, fetchedSlot := some 3 }) .b 0x2D

theorem witness_ReadBytes_effects :
    (reading run .b 0x01).ReadsAt .b 0x01 { value := 0, effect := .clearSticky } ∧
      readyEmpty.ReadsAt .b 0x2D { value := 0, effect := .endReady } ∧ (readyEmpty.port .b).fetch = .ready :=
  ⟨reads_of (by decide +kernel), reads_of (by decide +kernel), by decide +kernel⟩

theorem witness_PortAndModeChecksRefuse :
    (let s := issuing (leaving live .a) .a .join []
     s.Issues .a .join ∧ (s.port .a).state = .leaving) ∧
      (let s := issuing run .d .setIrq []
       s.Issues .d .setIrq ∧ (s.port .d).state = .offline) ∧
      (let s := issuing run .a .join []
       s.Issues .a .join ∧ s.Joined .a) ∧
      (let s := issuing run .a .go []
       s.Issues .a .go ∧ s.Joined .a ∧ s.mode = .run) ∧
      (let s := issuing setup .a .doze []
       s.Issues .a .doze ∧ s.Joined .a ∧ s.mode = .setup) :=
  ⟨⟨issues_of (by decide +kernel), by decide +kernel⟩, ⟨issues_of (by decide +kernel), by decide +kernel⟩,
    ⟨issues_of (by decide +kernel), joined_of (by decide +kernel)⟩,
    ⟨issues_of (by decide +kernel), joined_of (by decide +kernel), by decide +kernel⟩,
    issues_of (by decide +kernel), joined_of (by decide +kernel), by decide +kernel⟩

theorem witness_DozeEndsAtACommand :
    (let s := issuing (dozing run .b) .b .setIrq [1, 1, 1, 1]
     s.Issues .b .setIrq ∧ (s.port .b).state = .doze) ∧ (run.port .b).state ≠ .doze :=
  ⟨⟨issues_of (by decide +kernel), by decide +kernel⟩, by decide +kernel⟩

/-- JOIN in either mode; DOZE from ACTIVE and from DOZE. -/
theorem witness_JoinAndDozeTaken :
    (∀ m ∈ [Mode.setup, Mode.run],
        let s := issuing { run with mode := m } .d .join []
        s.Issues .d .join ∧ (s.port .d).state = .offline) ∧
      (let s := issuing run .b .doze []
       s.Issues .b .doze ∧ s.Joined .b ∧ s.mode = .run) ∧
      (let s := issuing (dozing run .b) .b .doze []
       s.Issues .b .doze ∧ s.Joined .b ∧ s.mode = .run) := by
  refine ⟨?_, ⟨issues_of (by decide +kernel), joined_of (by decide +kernel), by decide +kernel⟩,
    issues_of (by decide +kernel), joined_of (by decide +kernel), by decide +kernel⟩
  intro m hm
  refine ⟨issues_of ?_, ?_⟩ <;> revert m <;> decide +kernel

/-- SETUP with every vote cast and 15 jobs, the most that leave room. -/
def voted : State :=
  { setup.updatePorts fun _ u => { u with vote := u.state == .active } with jobs := List.replicate 15 (.mode 1 []) }

theorem witness_GoAndTheBarrier :
    (voted.mode = .setup ∧ (voted.port .a).state = .active ∧
        (∀ p ∈ allPorts, (voted.port p).state = .active → (voted.port p).vote = true) ∧ voted.jobs.length < 16) ∧
      (run.mode = .run ∧ (∀ p ∈ allPorts, (State.reset.port p).state ≠ .active) ∧
        ((setup.port .a).state = .active ∧ (setup.port .a).vote = false) ∧ 16 ≤ (full voted).jobs.length) ∧
      (let s := issuing setup .a .go [0, 1]
       s.Issues .a .go ∧ (s.port .a).state = .active ∧ s.mode = .setup ∧
         (s.port .a).args[0] ++ (s.port .a).args[1] = s.generation) ∧
      (let s := issuing setup .a .go [1, 1]
       s.Issues .a .go ∧ (s.port .a).state = .active ∧ s.mode = .setup ∧
         (s.port .a).args[0] ++ (s.port .a).args[1] ≠ s.generation) :=
  ⟨by decide +kernel, by decide +kernel, ⟨issues_of (by decide +kernel), by decide +kernel⟩,
    issues_of (by decide +kernel), by decide +kernel⟩

/-- SET_EXCHANGE: each argument just beyond its range; then every argument at the end of its range, with no vote, with
votes and room, and with votes and no room. -/
theorem witness_SettingsWrites_exchange :
    (∀ l ∈ ([[4, 0, 1], [0, 0, 0], [0, 0, 1, 1, 0, 0, 1]] : List (List Byte)),
        let s := issuing voted .a .setExchange l
        let u := s.port .a
        s.Issues .a .setExchange ∧ u.state = .active ∧ s.mode = .setup ∧
          (3 < (u.args[0]).toNat ∨ u.args[1] ++ u.args[2] = (0 : BitVec 16) ∨
            16777216 < (u.args[3] ++ u.args[4] ++ u.args[5] ++ u.args[6]).toNat)) ∧
      ∀ x ∈ [setup, voted, full voted],
        let s := issuing x .a .setExchange [3, 0, 1, 1, 0, 0, 0]
        let u := s.port .a
        s.Issues .a .setExchange ∧ u.state = .active ∧ s.mode = .setup ∧
          ¬ (3 < (u.args[0]).toNat ∨ u.args[1] ++ u.args[2] = (0 : BitVec 16) ∨
            16777216 < (u.args[3] ++ u.args[4] ++ u.args[5] ++ u.args[6]).toNat) := by
  refine ⟨fun l hl => ⟨issues_of ?_, ?_⟩, fun x hx => ⟨issues_of ?_, ?_⟩⟩
  · revert l; decide +kernel
  · revert l; decide +kernel
  · rcases List.mem_cons.mp hx with rfl | hx
    · decide +kernel
    · rcases List.mem_cons.mp hx with rfl | hx
      · decide +kernel
      · rw [List.mem_singleton.mp hx]; decide +kernel
  · rcases List.mem_cons.mp hx with rfl | hx
    · decide +kernel
    · rcases List.mem_cons.mp hx with rfl | hx
      · decide +kernel
      · rw [List.mem_singleton.mp hx]; decide +kernel

/-- The three states of the statement above: no vote; votes and room; votes and no room. -/
theorem witness_SettingsWrites_votes :
    (allPorts.filter fun q => (setup.port q).vote) = [] ∧ (allPorts.filter fun q => (voted.port q).vote) = [.a, .b] ∧
      voted.jobs.length < 16 ∧ 16 ≤ (full voted).jobs.length := by decide +kernel

/-- SET_QUEUE at depth 16 over sixteen entries, the newest an OVERFLOW notice, and not. -/
def deep (k : NoticeKind) : State :=
  setup.updatePort .a fun u =>
    { u with queue := { u.queue with
        entries := List.replicate 15 (Notice.plain .published 1 1 0 0) ++ [Notice.plain k 0xFF 0 1 0] } }

theorem witness_SettingsWrites_queue :
    (let s := issuing (deep .overflow) .a .setQueue [16, 15]
     s.Issues .a .setQueue ∧ (s.port .a).state = .active ∧ s.mode = .setup ∧
       (s.port .a).queue.entries.length = 16 ∧
       ((s.port .a).queue.entries.getLast?.map fun n => n.kind) = some .overflow) ∧
      (let s := issuing (deep .published) .a .setQueue [16, 15]
       s.Issues .a .setQueue ∧ (s.port .a).state = .active ∧ s.mode = .setup ∧
         ((s.port .a).queue.entries.getLast?.map fun n => n.kind) = some .published) ∧
      (let s := issuing (full voted) .a .setQueue [128, 127]
       s.Issues .a .setQueue ∧ (s.port .a).state = .active ∧ s.mode = .setup ∧ 16 ≤ s.jobs.length) :=
  ⟨⟨issues_of (by decide +kernel), by decide +kernel⟩, ⟨issues_of (by decide +kernel), by decide +kernel⟩,
    issues_of (by decide +kernel), by decide +kernel⟩

/-- Filters 7 and 8, options 3FH and 40H; IRQ levels 32, which is the depth, and 33. -/
theorem witness_OwnSettings :
    (let s := issuing run .b .setFilter [7, 0, 0, 0, 0, 0, 0, 0x3F]
     s.Issues .b .setFilter ∧ s.Joined .b ∧ ((s.port .b).args[0]).toNat = (7 : Fin 8).val ∧
       ((s.port .b).args[7]).toNat ≤ 63) ∧
      (let s := issuing setup .b .setFilter [8, 0, 0, 0, 0, 0, 0, 0x40]
       s.Issues .b .setFilter ∧ s.Joined .b ∧ 7 < ((s.port .b).args[0]).toNat ∧ 63 < ((s.port .b).args[7]).toNat) ∧
      (let s := issuing run .b .clearFilter [7]
       s.Issues .b .clearFilter ∧ s.Joined .b ∧ ((s.port .b).args[0]).toNat = (7 : Fin 8).val) ∧
      (let s := issuing run .b .clearFilter [8]
       s.Issues .b .clearFilter ∧ s.Joined .b ∧ 7 < ((s.port .b).args[0]).toNat) ∧
      (let s := issuing run .b .setIrq [1, 0, 1, 32]
       s.Issues .b .setIrq ∧ s.Joined .b ∧ (s.port .b).queue.depth = ((s.port .b).args[3]).toNat) ∧
      (let s := issuing run .b .setIrq [1, 0, 1, 33]
       s.Issues .b .setIrq ∧ s.Joined .b ∧ (s.port .b).queue.depth < ((s.port .b).args[3]).toNat) :=
  ⟨⟨issues_of (by decide +kernel), joined_of (by decide +kernel), by decide +kernel⟩,
    ⟨issues_of (by decide +kernel), joined_of (by decide +kernel), by decide +kernel⟩,
    ⟨issues_of (by decide +kernel), joined_of (by decide +kernel), by decide +kernel⟩,
    ⟨issues_of (by decide +kernel), joined_of (by decide +kernel), by decide +kernel⟩,
    ⟨issues_of (by decide +kernel), joined_of (by decide +kernel), by decide +kernel⟩,
    issues_of (by decide +kernel), joined_of (by decide +kernel), by decide +kernel⟩

/-- Every slot taken, under keys that begin with FFH. -/
def crowded : State :=
  { run with
    slots := Vector.ofFn fun i : Fin 64 =>
      { incarnation := 1, record := some { liveRecord with key := 0xFF0000 + BitVec.ofNat 24 i.val } } }

/-- The arguments of CLAIM: key 000009H, a depth, period 2^24, an auto-answer. -/
def claimArgs (depth auto : Byte) : List Byte := [0, 0, 9, depth, 1, 0, 0, 0, auto]

/-- CLAIM's arguments pass its first check. -/
def goodClaim (u : PortUnit) : Bool :=
  decide (1 ≤ (u.args[3]).toNat ∧ (u.args[3]).toNat ≤ 6 ∧
    (u.args[4] ++ u.args[5] ++ u.args[6] ++ u.args[7]).toNat ≤ 16777216 ∧ (u.args[8]).toNat ≤ 1)

/-- Depths 0 and 7, period 2^24+1 and auto-answer 2 are bad; depth 6, period 2^24 and auto-answer 1 are not. Then one
state for each later check: the key held, no FREE slot, six free cells for a depth of 6, and no room for the job. -/
theorem witness_ClaimIsCheckedInOrder :
    (∀ l ∈ [claimArgs 0 1, claimArgs 7 1, claimArgs 6 2, [0, 0, 9, 6, 1, 0, 0, 1, 1]],
        let s := issuing run .b .claim l
        s.SlotCommand .b .claim ∧ goodClaim (s.port .b) = false) ∧
      (let s := issuing live .b .claim [5, 0, 0x10, 1]
       s.SlotCommand .b .claim ∧ goodClaim (s.port .b) = true ∧ s.record 3 = some liveRecord ∧
         liveRecord.key = (s.port .b).args[0] ++ (s.port .b).args[1] ++ (s.port .b).args[2]) ∧
      (let s := issuing crowded .b .claim (claimArgs 6 1)
       s.SlotCommand .b .claim ∧ goodClaim (s.port .b) = true ∧ (∀ k, s.record k ≠ none) ∧
         ∀ k, ∀ r ∈ s.record k, r.key ≠ 9) ∧
      (let s := issuing { run with free := [0, 1, 2, 3, 4, 5] } .b .claim (claimArgs 6 1)
       s.SlotCommand .b .claim ∧ goodClaim (s.port .b) = true ∧ s.record 0 = none ∧ s.free.length < 6 + 1 ∧
         ∀ k, ∀ r ∈ s.record k, r.key ≠ 9) ∧
      (let s := issuing (full { run with free := [0, 1, 2, 3, 4, 5, 6] }) .b .claim (claimArgs 6 1)
       s.SlotCommand .b .claim ∧ goodClaim (s.port .b) = true ∧ s.record 0 = none ∧ 6 + 1 ≤ s.free.length ∧
         16 ≤ s.jobs.length ∧ ∀ k, ∀ r ∈ s.record k, r.key ≠ 9) := by
  refine ⟨fun l hl => ⟨slot_of ?_, ?_⟩,
    ⟨slot_of (by decide +kernel), by decide +kernel, by decide +kernel, by decide +kernel⟩,
    ⟨slot_of (by decide +kernel), by decide +kernel, by decide +kernel, records_of (by decide +kernel)⟩,
    ⟨slot_of (by decide +kernel), by decide +kernel, by decide +kernel, by decide +kernel,
      records_of (by decide +kernel)⟩,
    slot_of (by decide +kernel), by decide +kernel, by decide +kernel, by decide +kernel, by decide +kernel,
    records_of (by decide +kernel)⟩ <;> revert l <;> decide +kernel

/-- Slot 0 is the lowest FREE slot; a pool of exactly seven cells, for a depth of 6; 15 jobs. -/
theorem witness_ClaimTakesTheLowestFreeSlot :
    let s := issuing { live with free := [3, 4, 5, 6, 7, 8, 9], jobs := List.replicate 15 (.mode 1 []) } .b .claim
      (claimArgs 6 1)
    s.SlotCommand .b .claim ∧ goodClaim (s.port .b) = true ∧
      (∀ j, ∀ r ∈ s.record j, r.key ≠ (s.port .b).args[0] ++ (s.port .b).args[1] ++ (s.port .b).args[2]) ∧
      s.record 0 = none ∧ (∀ j, j < (0 : SlotNo) → s.record j ≠ none) ∧
      s.free = 3 :: ([4, 5, 6, 7, 8, 9] ++ []) ∧ [4, 5, 6, 7, 8, 9].length = ((s.port .b).args[3]).toNat ∧
      s.jobs.length < 16 :=
  ⟨slot_of (by decide +kernel), by decide +kernel, records_of (by decide +kernel), by decide +kernel,
    by decide +kernel, by decide +kernel, by decide +kernel, by decide +kernel⟩

/-- Slot arguments 64 and 63; another incarnation; another port; no producer. -/
theorem witness_SlotAndProducerChecks :
    (∀ c ∈ [Command.release, .fetch],
        let s := issuing live .b c [64, 4]
        s.SlotCommand .b c ∧ 63 < ((s.port .b).args[0]).toNat) ∧
      (let s := issuing live .a .commit [63, 4]
       s.SlotCommand .a .commit ∧ ((s.port .a).args[0]).toNat = (63 : SlotNo).val ∧ s.record 63 = none) ∧
      (let s := issuing live .a .commit [3, 5]
       s.SlotCommand .a .commit ∧ ((s.port .a).args[0]).toNat = (3 : SlotNo).val ∧
         (s.slot 3).incarnation ≠ (s.port .a).args[1]) ∧
      (let s := issuing live .b .commit [3, 4]
       s.SlotCommand .b .commit ∧ s.Names .b 3 liveRecord ∧ liveRecord.producer ≠ some .b) ∧
      (let s := issuing orphan .b .commit [3, 4]
       s.SlotCommand .b .commit ∧ s.Names .b 3 orphanRecord ∧ orphanRecord.producer ≠ some .b) := by
  refine ⟨fun c hc => ⟨slot_of ?_, ?_⟩, ⟨slot_of (by decide +kernel), by decide +kernel⟩,
    ⟨slot_of (by decide +kernel), by decide +kernel⟩,
    ⟨slot_of (by decide +kernel), names_of (by decide +kernel), by decide +kernel⟩, slot_of (by decide +kernel),
    names_of (by decide +kernel), by decide +kernel⟩ <;> revert c <;> decide +kernel

theorem witness_ReleaseEndsTheRecord :
    (let s := issuing opened .a .release [3, 4]
     s.SlotCommand .a .release ∧ s.Names .a 3 openRecord ∧ openRecord.producer = some .a ∧ s.jobs.length < 16) ∧
      (let s := issuing (full opened) .a .release [3, 4]
       s.SlotCommand .a .release ∧ s.Names .a 3 openRecord ∧ 16 ≤ s.jobs.length) :=
  ⟨⟨slot_of (by decide +kernel), names_of (by decide +kernel), by decide +kernel⟩, slot_of (by decide +kernel),
    names_of (by decide +kernel), by decide +kernel⟩

/-- The key in ARG0 to ARG2 of a port. -/
def keyOf (s : State) (p : Port) : Key := (s.port p).args[0] ++ (s.port p).args[1] ++ (s.port p).args[2]

/-- A key no slot holds, a key a LIVE slot holds, and the orphan's key, with room and without. -/
theorem witness_AdoptTakesOverAnOrphan :
    (let s := issuing orphan .b .adopt [5, 0, 0x11]
     s.SlotCommand .b .adopt ∧ ∀ k, ∀ r ∈ s.record k, r.key = keyOf s .b → r.isOrphan = false) ∧
      (let s := issuing live .b .adopt [5, 0, 0x10]
       s.SlotCommand .b .adopt ∧ ∀ k, ∀ r ∈ s.record k, r.key = keyOf s .b → r.isOrphan = false) ∧
      (let s := issuing orphan .b .adopt [5, 0, 0x10]
       s.SlotCommand .b .adopt ∧ s.record 3 = some orphanRecord ∧ orphanRecord.key = keyOf s .b ∧
         orphanRecord.isOrphan = true ∧ (∀ j, ∀ x ∈ s.record j, x.key = orphanRecord.key → j = 3) ∧
         s.jobs.length < 16) ∧
      (let s := issuing (full orphan) .b .adopt [5, 0, 0x10]
       s.SlotCommand .b .adopt ∧ s.record 3 = some orphanRecord ∧ orphanRecord.key = keyOf s .b ∧
         (∀ j, ∀ x ∈ s.record j, x.key = orphanRecord.key → j = 3) ∧ 16 ≤ s.jobs.length) :=
  ⟨⟨slot_of (by decide +kernel), records_of (by decide +kernel)⟩,
    ⟨slot_of (by decide +kernel), records_of (by decide +kernel)⟩,
    ⟨slot_of (by decide +kernel), by decide +kernel, by decide +kernel, by decide +kernel,
      records_of (by decide +kernel), by decide +kernel⟩,
    slot_of (by decide +kernel), by decide +kernel, by decide +kernel, records_of (by decide +kernel),
    by decide +kernel⟩

theorem witness_LookupReports :
    (let s := issuing live .b .lookup [5, 0, 0x11]
     s.SlotCommand .b .lookup ∧ ∀ k, ∀ r ∈ s.record k, r.key ≠ keyOf s .b) ∧
      (let s := issuing orphan .b .lookup [5, 0, 0x10]
       s.SlotCommand .b .lookup ∧ s.record 3 = some orphanRecord ∧ orphanRecord.key = keyOf s .b ∧
         ∀ j, ∀ x ∈ s.record j, x.key = orphanRecord.key → j = 3) :=
  ⟨⟨slot_of (by decide +kernel), records_of (by decide +kernel)⟩, slot_of (by decide +kernel), by decide +kernel,
    by decide +kernel, records_of (by decide +kernel)⟩

theorem witness_OrphaningTakesTheLowestSlot :
    (((leaving live .a).port .a).state = .leaving ∧ (leaving live .a).jobs.length < 16 ∧
        (leaving live .a).record 3 = some liveRecord ∧ liveRecord.producer = some .a ∧
        (∀ j, j < (3 : SlotNo) → (leaving live .a).producer j ≠ some .a)) ∧
      ((live.port .a).state ≠ .leaving ∧ 16 ≤ (full (leaving live .a)).jobs.length ∧
        ∀ k, (leaving run .a).producer k ≠ some .a) := by decide +kernel

/-- Port A with some slots on its open list. -/
def listed (n : Nat) (s : State) : State := s.updatePort .a fun u => { u with openList := (allSlots.drop 10).take n }

/-- A record whose cell is owed. -/
def owedRecord : Record := { liveRecord with next := .owed 1 }

/-- An open update; eight open updates elsewhere; seven; and an owed cell. -/
theorem witness_UpdatesOpenSelectAndAbandon_open :
    (let s := issuing opened .a .openUpdate [3, 4]
     s.SlotCommand .a .openUpdate ∧ s.Names .a 3 openRecord ∧ openRecord.producer = some .a ∧
       openRecord.openUpdate ≠ none) ∧
      (let s := issuing (listed 8 live) .a .openUpdate [3, 4]
       s.SlotCommand .a .openUpdate ∧ s.Names .a 3 liveRecord ∧ liveRecord.producer = some .a ∧
         liveRecord.openUpdate = none ∧ 8 ≤ (s.port .a).openList.length) ∧
      (let s := issuing (listed 7 live) .a .openUpdate [3, 4]
       s.SlotCommand .a .openUpdate ∧ s.Names .a 3 liveRecord ∧ (s.port .a).openList.length < 8 ∧
         liveRecord.next = .staging liveRecord.next.cell none) ∧
      (let s := issuing (withRecord run owedRecord) .a .openUpdate [3, 4]
       s.SlotCommand .a .openUpdate ∧ s.Names .a 3 owedRecord ∧ owedRecord.producer = some .a ∧
         owedRecord.openUpdate = none ∧ owedRecord.next = .owed owedRecord.next.cell) :=
  ⟨⟨slot_of (by decide +kernel), names_of (by decide +kernel), by decide +kernel⟩,
    ⟨slot_of (by decide +kernel), names_of (by decide +kernel), by decide +kernel⟩,
    ⟨slot_of (by decide +kernel), names_of (by decide +kernel), by decide +kernel⟩, slot_of (by decide +kernel),
    names_of (by decide +kernel), by decide +kernel⟩

theorem witness_UpdatesOpenSelectAndAbandon_others :
    ∀ c ∈ [Command.selectStage, .abandon],
      (let s := issuing opened .a c [3, 4]
       s.SlotCommand .a c ∧ s.Names .a 3 openRecord ∧ openRecord.producer = some .a ∧
         openRecord.openUpdate = some { length := 2, overrun := false }) ∧
        (let s := issuing live .a c [3, 4]
         s.SlotCommand .a c ∧ s.Names .a 3 liveRecord ∧ liveRecord.producer = some .a ∧
           liveRecord.openUpdate = none) := by
  intro c hc
  refine ⟨⟨slot_of ?_, names_of ?_, by decide +kernel⟩, slot_of ?_, names_of ?_, by decide +kernel⟩ <;> revert c <;>
    decide +kernel

/-- The record with an overrun update. -/
def overrunRecord : Record := { liveRecord with next := .staging 1 (some { length := 32, overrun := true }) }

def overrun : State := (withRecord run overrunRecord).updatePort .a fun u => { u with openList := [3] }

theorem witness_CommitsAreRefusedInOrder :
    (let s := issuing live .a .commit [3, 4]
     s.SlotCommand .a .commit ∧ s.Names .a 3 liveRecord ∧ liveRecord.openUpdate = none) ∧
      (let s := issuing overrun .a .commit [3, 4]
       s.SlotCommand .a .commit ∧ s.Names .a 3 overrunRecord ∧ overrunRecord.producer = some .a) ∧
      (let s := issuing (full opened) .a .commit [3, 4]
       s.SlotCommand .a .commit ∧ s.Names .a 3 openRecord ∧ 16 ≤ s.jobs.length) ∧
      (let s := issuing live .a .commitGroup []
       s.SlotCommand .a .commitGroup ∧ (s.port .a).openList = []) ∧
      (let s := issuing overrun .a .commitGroup []
       s.SlotCommand .a .commitGroup ∧ (s.port .a).openList = [3] ∧ s.record 3 = some overrunRecord) ∧
      (let s := issuing (full opened) .a .commitGroup []
       s.SlotCommand .a .commitGroup ∧ (s.port .a).openList = [3] ∧ s.record 3 = some openRecord ∧
         16 ≤ s.jobs.length) :=
  ⟨⟨slot_of (by decide +kernel), names_of (by decide +kernel), by decide +kernel⟩,
    ⟨slot_of (by decide +kernel), names_of (by decide +kernel), by decide +kernel⟩,
    ⟨slot_of (by decide +kernel), names_of (by decide +kernel), by decide +kernel⟩,
    ⟨slot_of (by decide +kernel), by decide +kernel⟩, ⟨slot_of (by decide +kernel), by decide +kernel⟩,
    slot_of (by decide +kernel), by decide +kernel⟩

theorem witness_CommitMakesAVersion :
    let s := issuing opened .a .commit [3, 4]
    s.SlotCommand .a .commit ∧ s.Names .a 3 openRecord ∧ openRecord.producer = some .a ∧
      openRecord.versions.length + openRecord.spares.length = openRecord.depth ∧ 1 ≤ openRecord.depth ∧
      openRecord.next = .staging 1 (some { length := 2, overrun := false }) ∧ s.jobs.length < 16 :=
  ⟨slot_of (by decide +kernel), names_of (by decide +kernel), by decide +kernel⟩

/-- The open record with a full version list of depth 1. -/
def fullRecord : Record := { openRecord with depth := 1, spares := [] }

/-- A full list: its oldest version, in cell 0, unpinned and pinned. -/
theorem witness_CommitMakesAVersion_full :
    ∀ n ∈ [0, 1],
      let s := issuing ((opened.setRecord 3 (some fullRecord)).setCell 0 { content := content1, pins := n }) .a .commit
        [3, 4]
      s.SlotCommand .a .commit ∧ s.Names .a 3 fullRecord ∧ fullRecord.producer = some .a ∧
        fullRecord.versions.length + fullRecord.spares.length = fullRecord.depth ∧ 1 ≤ fullRecord.depth ∧
        ¬ fullRecord.versions.length < fullRecord.depth ∧ fullRecord.versions.head? = some 0 ∧ (s.cell 0).pins = n ∧
        fullRecord.next = .staging 1 (some { length := 2, overrun := false }) ∧ s.jobs.length < 16 := by
  intro n hn
  refine ⟨slot_of ?_, names_of ?_, ?_⟩ <;> revert n <;> decide +kernel

/-- The arguments of SET_WATCH pass its checks (R122). -/
def goodWatch (u : PortUnit) : Bool :=
  let bytes := (u.args[3]).toNat / 8
  let signed := u.args[4] = 1
  let low := if signed then (u.args[5] ++ u.args[6]).toInt else (u.args[5] ++ u.args[6]).toNat
  let high := if signed then (u.args[7] ++ u.args[8]).toInt else (u.args[7] ++ u.args[8]).toNat
  let least : Int := if signed then (if bytes = 1 then -128 else -32768) else 0
  let most : Int := if signed then (if bytes = 1 then 127 else 32767) else (if bytes = 1 then 255 else 65535)
  decide ((u.args[0]).toNat < 64 ∧ (u.args[3] = 8 ∨ u.args[3] = 16) ∧ (u.args[4]).toNat ≤ 1 ∧
    (u.args[2]).toNat + bytes ≤ 32 ∧ 1 ≤ (u.args[9]).toNat ∧ (u.args[9]).toNat ≤ 7 ∧
    least ≤ low ∧ low ≤ most ∧ least ≤ high ∧ high ≤ most ∧ low < high)

/-- Field at offset 30 of width 16, signed, limits -32768 and 32767, confirm 7: every argument at the end of its range;
and each argument beyond it, or equal limits. -/
theorem witness_WatchCommands :
    (let s := issuing live .a .setWatch [3, 4, 30, 16, 1, 0x80, 0, 0x7F, 0xFF, 7]
     s.SlotCommand .a .setWatch ∧ s.Names .a 3 liveRecord ∧ goodWatch (s.port .a) = true ∧
       liveRecord.producer = some .a) ∧
      (∀ l ∈ ([[3, 4, 31, 16, 1, 0x80, 0, 0x7F, 0xFF, 7], [3, 4, 30, 9, 1, 0x80, 0, 0x7F, 0xFF, 7],
          [3, 4, 30, 16, 2, 0x80, 0, 0x7F, 0xFF, 7], [3, 4, 30, 16, 1, 0x7F, 0xFF, 0x7F, 0xFF, 7],
          [3, 4, 30, 16, 1, 0x80, 0, 0x7F, 0xFF, 8], [3, 4, 30, 16, 1, 0x80, 0, 0x7F, 0xFF, 0],
          [3, 4, 31, 8, 0, 0, 0, 1, 0, 1], [64, 4, 30, 16, 1, 0x80, 0, 0x7F, 0xFF, 7]] : List (List Byte)),
        let s := issuing live .a .setWatch l
        s.SlotCommand .a .setWatch ∧ goodWatch (s.port .a) = false) ∧
      (let s := issuing live .a .setWatch [3, 5, 31, 8, 0, 0, 0, 0, 255, 1]
       s.SlotCommand .a .setWatch ∧ goodWatch (s.port .a) = true ∧
         (s.slot 3).incarnation ≠ (s.port .a).args[1]) ∧
      (let s := issuing live .b .setWatch [3, 4, 31, 8, 0, 0, 0, 0, 255, 1]
       s.SlotCommand .b .setWatch ∧ s.Names .b 3 liveRecord ∧ goodWatch (s.port .b) = true ∧
         liveRecord.producer ≠ some .b) ∧
      (let s := issuing live .a .clearWatch [3, 4]
       s.SlotCommand .a .clearWatch ∧ s.Names .a 3 liveRecord ∧ liveRecord.producer = some .a) := by
  refine ⟨⟨slot_of (by decide +kernel), names_of (by decide +kernel), by decide +kernel⟩,
    fun l hl => ⟨slot_of ?_, ?_⟩, ⟨slot_of (by decide +kernel), by decide +kernel⟩,
    ⟨slot_of (by decide +kernel), names_of (by decide +kernel), by decide +kernel⟩, slot_of (by decide +kernel),
    names_of (by decide +kernel), by decide +kernel⟩ <;> revert l <;> decide +kernel

/-- An unsigned 8-bit watch at offset 0 with limits 9 and 11, that has seen two HIGH samples. -/
def watch1 : Watch :=
  { offset := 0, width := .bits8, signed := false, low := 9, high := 11, confirm := 3, state := .inside,
    candidate := .high, run := 2 }

/-- A content of length 2 whose first byte is the value. -/
def sampleOf (v : Byte) : Content := { content1 with payload := (Vector.replicate 32 0).set 0 v }

/-- Values at both limits and between them; the third HIGH sample confirms, and the first LOW one does not. -/
theorem witness_WatchConfirmsASide :
    (watch1.sample (sampleOf 11) = some 11 ∧ watch1.low < watch1.high ∧ watch1.high ≤ 11 ∧ ¬ (11 : Int) ≤ watch1.low ∧
        watch1.candidate = .high ∧ watch1.confirm ≤ min (watch1.run + 1) 7) ∧
      (watch1.sample (sampleOf 9) = some 9 ∧ (9 : Int) ≤ watch1.low ∧ ¬ watch1.high ≤ (9 : Int) ∧
        ¬ watch1.confirm ≤ 1) ∧
      (watch1.sample (sampleOf 10) = some 10 ∧ ¬ (10 : Int) ≤ watch1.low ∧ ¬ watch1.high ≤ (10 : Int)) := by
  decide +kernel

/-- A field that ends with the version, and one that ends a byte beyond it, in both widths. -/
theorem witness_WatchSamplesTheField :
    content1.length < 1 + 2 ∧ 0 + 2 ≤ content1.length ∧ content1.length < 2 + 1 ∧ 1 + 1 ≤ content1.length := by
  decide +kernel

/-- Selects 2 and 3; a FREE slot; a fetch in flight; a version that is not listed; and one that is. -/
theorem witness_FetchPinsAVersion :
    (let s := issuing live .b .fetch [3, 4, 3]
     s.SlotCommand .b .fetch ∧ ((s.port .b).args[0]).toNat = (3 : SlotNo).val ∧ 2 < ((s.port .b).args[2]).toNat) ∧
      (let s := issuing live .b .fetch [2, 4, 2]
       s.SlotCommand .b .fetch ∧ ((s.port .b).args[2]).toNat ≤ 2 ∧ s.record 2 = none) ∧
      (let s := issuing (live.updatePort .b fun u => { u with fetch := .inFlight .waiting 0 }) .b .fetch [3, 4, 1]
       s.SlotCommand .b .fetch ∧ s.Names .b 3 liveRecord ∧ (s.port .b).fetch.pinned ≠ none) ∧
      (let s := issuing live .b .fetch [3, 4, 2, 0, 8]
       s.SlotCommand .b .fetch ∧ s.Names .b 3 liveRecord ∧ (s.port .b).fetch.pinned = none ∧
         (liveRecord.versions.find? fun c =>
           (s.cell c).content.sequence.setWidth 16 == (s.port .b).args[3] ++ (s.port .b).args[4]) = none) ∧
      (let s := issuing live .b .fetch [3, 4, 2, 0, 7]
       s.SlotCommand .b .fetch ∧ s.Names .b 3 liveRecord ∧ (s.port .b).fetch.pinned = none ∧
         (liveRecord.versions.find? fun c =>
           (s.cell c).content.sequence.setWidth 16 == (s.port .b).args[3] ++ (s.port .b).args[4]) = some 0) :=
  ⟨⟨slot_of (by decide +kernel), by decide +kernel⟩, ⟨slot_of (by decide +kernel), by decide +kernel⟩,
    ⟨slot_of (by decide +kernel), names_of (by decide +kernel), by decide +kernel⟩,
    ⟨slot_of (by decide +kernel), names_of (by decide +kernel), by decide +kernel⟩, slot_of (by decide +kernel),
    names_of (by decide +kernel), by decide +kernel⟩

/-- Ports A and B wait for a free path that the DU held last. -/
def waiting : State :=
  { run with
    portA := { joinedUnit with fetch := .inFlight .waiting 0 },
    portB := { joinedUnit with fetch := .inFlight .waiting 0 }, path := none, lastGranted := .du }

theorem witness_GrantFollowsTheCyclicOrder :
    ({ waiting with path := some (.port .c) } : State).path ≠ none ∧
      (([.du, .port .a, .port .b, .port .c, .port .d] : List Requester).filter fun r => run.waits r) = [] ∧
      waiting.path = none ∧
      (([.port .a, .port .b, .port .c, .port .d, .du] : List Requester).filter fun r => waiting.waits r) =
        [.port .a, .port .b] := by decide +kernel

/-- Entries of one port, on another slot, in the positions given. -/
def requested (is : List EntryNo) (p : Port) (s : State) : State :=
  is.foldl (fun t i => t.setEntry i (some { entryOf p with slot := 9, incarnation := 1 })) s

/-- The producer; an orphan; an entry of the port in the last position; four entries of the port; sixteen in all; and a
full job queue before the first entry on the slot. -/
theorem witness_RequestIsRefusedInOrder :
    (let s := issuing live .a .request [3, 4]
     s.SlotCommand .a .request ∧ s.Names .a 3 liveRecord ∧ liveRecord.producer = some .a) ∧
      (let s := issuing orphan .b .request [3, 4]
       s.SlotCommand .b .request ∧ s.Names .b 3 orphanRecord ∧ orphanRecord.isOrphan = true) ∧
      (let s := issuing (live.setEntry 15 (some (entryOf .b))) .b .request [3, 4]
       s.SlotCommand .b .request ∧ s.Names .b 3 liveRecord ∧ s.entry 15 = some (entryOf .b)) ∧
      (let s := issuing (requested [0, 1, 2, 3] .b live) .b .request [3, 4]
       s.SlotCommand .b .request ∧ s.Names .b 3 liveRecord ∧ s.requestCount .b = 4 ∧
         ∀ i, ∀ e ∈ s.entry i, ¬ (e.slot = 3 ∧ e.incarnation = 4)) ∧
      (let s := issuing (requested allEntries .c live) .b .request [3, 4]
       s.SlotCommand .b .request ∧ s.Names .b 3 liveRecord ∧ (∀ i, s.entry i ≠ none) ∧
         ∀ i, ∀ e ∈ s.entry i, ¬ (e.slot = 3 ∧ e.incarnation = 4)) ∧
      (let s := issuing (full live) .b .request [3, 4]
       s.SlotCommand .b .request ∧ s.Names .b 3 liveRecord ∧ liveRecord.isOrphan = false ∧
         liveRecord.producer ≠ some .b ∧ s.requestCount .b < 4 ∧ (∀ i, s.entry i = none) ∧ 16 ≤ s.jobs.length) :=
  ⟨⟨slot_of (by decide +kernel), names_of (by decide +kernel), by decide +kernel⟩,
    ⟨slot_of (by decide +kernel), names_of (by decide +kernel), by decide +kernel⟩,
    ⟨slot_of (by decide +kernel), names_of (by decide +kernel), by decide +kernel⟩,
    ⟨slot_of (by decide +kernel), names_of (by decide +kernel), by decide +kernel, entries_of (by decide +kernel)⟩,
    ⟨slot_of (by decide +kernel), names_of (by decide +kernel), by decide +kernel, entries_of (by decide +kernel)⟩,
    slot_of (by decide +kernel), names_of (by decide +kernel), by decide +kernel⟩

/-- An auto-answer record with a version. -/
def autoRecord : Record := { liveRecord with autoAnswer := true }

/-- Answered at once; waiting as the first, with three entries of the port elsewhere; and waiting behind port C. -/
theorem witness_RequestIsAnsweredOrWaits :
    (let s := issuing (withRecord run autoRecord) .b .request [3, 4]
     s.SlotCommand .b .request ∧ s.Names .b 3 autoRecord ∧ autoRecord.isOrphan = false ∧
       autoRecord.producer ≠ some .b ∧
       (∀ i, ∀ e ∈ s.entry i, ¬ (e.requester = .b ∧ e.slot = 3 ∧ e.incarnation = 4)) ∧
       autoRecord.versions.getLast? = some 0 ∧ autoRecord.openUpdate = none ∧ s.jobs.length < 16) ∧
      (let s := issuing (requested [0, 1, 2] .b live) .b .request [3, 4]
       s.SlotCommand .b .request ∧ s.Names .b 3 liveRecord ∧ liveRecord.producer = some .a ∧
         liveRecord.autoAnswer = false ∧ (∀ j, ∀ e ∈ s.entry j, ¬ (e.slot = 3 ∧ e.incarnation = 4)) ∧
         s.entry 3 = none ∧ (∀ j, j < (3 : EntryNo) → s.entry j ≠ none) ∧ s.requestCount .b < 4 ∧
         s.jobs.length < 16) ∧
      (let s := issuing (live.setEntry 0 (some (entryOf .c))) .b .request [3, 4]
       s.SlotCommand .b .request ∧ s.Names .b 3 liveRecord ∧ s.entry 0 = some (entryOf .c) ∧ s.entry 1 = none ∧
         (∀ j, j < (1 : EntryNo) → s.entry j ≠ none) ∧ s.requestCount .b < 4 ∧
         ∀ j, ∀ e ∈ s.entry j, ¬ (e.requester = .b ∧ e.slot = 3 ∧ e.incarnation = 4)) :=
  ⟨⟨slot_of (by decide +kernel), names_of (by decide +kernel), by decide +kernel, by decide +kernel,
      entries_of (by decide +kernel), by decide +kernel⟩,
    ⟨slot_of (by decide +kernel), names_of (by decide +kernel), by decide +kernel, by decide +kernel,
      entries_of (by decide +kernel), by decide +kernel⟩,
    slot_of (by decide +kernel), names_of (by decide +kernel), by decide +kernel, by decide +kernel,
    by decide +kernel, by decide +kernel, entries_of (by decide +kernel)⟩

theorem witness_CancelRequestIsQuiet :
    (let s := issuing (live.setEntry 0 (some (entryOf .c))) .b .cancelRequest [3, 4]
     s.SlotCommand .b .cancelRequest ∧ s.Names .b 3 liveRecord ∧
       ∀ i, ∀ e ∈ s.entry i, (e.requester == Port.b && (e.slot == 3 && e.incarnation == 4)) = false) ∧
      (let s := issuing (live.setEntry 0 (some (entryOf .b))) .b .cancelRequest [3, 4]
       s.SlotCommand .b .cancelRequest ∧ s.Names .b 3 liveRecord ∧ s.entry 0 = some (entryOf .b)) :=
  ⟨⟨slot_of (by decide +kernel), names_of (by decide +kernel), entries_of (by decide +kernel)⟩,
    slot_of (by decide +kernel), names_of (by decide +kernel), by decide +kernel⟩

/-- Deadlines and holds reached at the tick, and one tick before it; the first and last positions of either part of the
scan; SETUP; and no room. -/
theorem witness_ScanVisits :
    (setup.mode = .setup ∧ 64 ≤ ({ run with scan := 64 } : State).scan.val ∧
        ({ run with scan := 63 } : State).scan.val < 64) ∧
      (∀ x ∈ [live, { live with etc := 999 }, full live],
        let s := { x with scan := 3 }
        s.mode = .run ∧ s.scan.val = (3 : SlotNo).val ∧ s.record 3 = some liveRecord) ∧
      ((live.etc - 1000).toNat < 2147483648 ∧ ¬ (({ live with etc := 999 } : State).etc - 1000).toNat < 2147483648) ∧
      (let s := { orphan with scan := 3, orphanHold := 50 }
       s.mode = .run ∧ s.scan.val = (3 : SlotNo).val ∧ s.record 3 = some orphanRecord ∧
         (s.etc - (950 + s.orphanHold)).toNat < 2147483648 ∧ s.jobs.length < 16) ∧
      (let s := { live with scan := 63 }
       s.mode = .run ∧ s.scan.val = (63 : SlotNo).val ∧ s.record 63 = none) ∧
      (let s := { live.setEntry 15 (some (entryOf .b)) with scan := 79 }
       s.mode = .run ∧ s.scan.val = 64 + (15 : EntryNo).val ∧ s.entry 15 = some (entryOf .b) ∧
         s.record (entryOf .b).slot = some liveRecord ∧ (s.etc - (entryOf .b).deadline).toNat < 2147483648 ∧
         s.jobs.length < 16) ∧
      (let s := { live.setEntry 0 (some (entryOf .b)) with scan := 64, etc := 989 }
       s.mode = .run ∧ s.scan.val = 64 + (0 : EntryNo).val ∧
         2147483648 ≤ (s.etc - (entryOf .b).deadline).toNat) := by decide +kernel

theorem witness_DistributionHandsTheHeadJob :
    (let s := { run with jobs := [.mode 1 [.a]], path := some .du }
     s.path = some .du ∧ s.jobs = [.mode 1 [.a]] ∧ s.mode = .run) ∧
      (let s := { voted with path := some .du }
       s.path = some .du ∧ s.jobs = .mode 1 [] :: List.replicate 14 (.mode 1 []) ∧ s.mode = .setup) ∧
      run.path ≠ some .du := by decide +kernel

/-- A member that the port's filter takes, and one it does not. -/
def memberOf (key : Key) : Published :=
  { subject := ⟨key, 3, 4⟩, producer := .a, sequence := 18, commitTime := 0x00017A30, byte0 := 2, byte1 := 0x5C,
    recovered := false, limit := none, answered := [] }

def filters1 : Vector Filter 8 :=
  (Vector.replicate 8 Filter.cleared).set 0
    { enabled := true, key := 0x050000, mask := 0xFFFF00, options := { Options.empty with pub := true } }

theorem witness_GroupJobNotices :
    (([memberOf 0x050010, memberOf 0x060000]).filter fun m =>
        (optionsFor filters1 m.subject.key).pub && m.producer != Port.b) = [memberOf 0x050010] ∧
      (([memberOf 0x050010, memberOf 0x060000]).filter fun m =>
        (optionsFor filters1 m.subject.key).pub && m.producer != Port.a) = [] := by decide +kernel

/-- An accepting queue of depth 16 and threshold 12 with some normal notices and a last one. -/
def queueOf (n : Nat) (last : Notice) : Queue :=
  { entries := List.replicate n (Notice.plain .appeared 9 9 0 0) ++ [last], depth := 16, threshold := 12,
    accepting := true, wakePending := false, irq := .default }

/-- Fills at each limit and just below it: 11 and 12 for a normal notice, 14 and 15 for an urgent one, 10 and 11 for a
block of two; each with and without a newest OVERFLOW notice. -/
theorem witness_AdmissionAndOverflow :
    let n := Notice.plain .appeared 9 9 0 0
    let o := Notice.plain .overflow 0xFF 0 1 0
    ((run.port .d).queue.accepting = false) ∧ (queueOf 9 n).accepting = true ∧
      (queueOf 9 n).entries.length + 2 ≤ 12 ∧ 12 < (queueOf 10 o).entries.length + 2 ∧
      n.coalescible = false ∧ n.cls = .normal ∧ (queueOf 10 n).entries.length < 12 ∧ 12 ≤ (queueOf 11 n).entries.length ∧
      o.cls = .urgent ∧ (queueOf 13 n).entries.length < 16 - 1 ∧ 16 - 1 ≤ (queueOf 14 n).entries.length ∧
      (queueOf 14 n).newestIsOverflow = false ∧ (queueOf 14 o).entries.getLast? = some o ∧ o.kind = .overflow := by
  decide +kernel

/-- A target at the head, free and under read; a newest entry about the record that is no target, at the limit and below
it; and no entry about the record, at the limit and below it. -/
theorem witness_CoalescingMergesInPlace :
    let x := { Notice.plain .published 3 4 0x12 0 with coalescible := true }
    let y := Notice.plain .limit 3 4 0x12 0
    let n := { Notice.plain .published 3 4 0x13 0 with coalescible := true }
    (queueOf 0 x).entries = [] ++ x :: [] ∧ (queueOf 0 x).accepting = true ∧ n.coalescible = true ∧
      (x.slot = n.slot ∧ x.incarnation = n.incarnation) ∧ x.kind = .published ∧ x.coalescible = true ∧
      (queueOf 11 y).entries = List.replicate 11 (Notice.plain .appeared 9 9 0 0) ++ y :: [] ∧
      y.kind ≠ .published ∧ n.cls = .normal ∧ 12 ≤ (queueOf 11 y).entries.length ∧
      (queueOf 10 y).entries.length < 12 ∧
      (let z := Notice.plain .published 3 5 0x12 0
       (∀ y ∈ (queueOf 11 z).entries, ¬ (y.slot = n.slot ∧ y.incarnation = n.incarnation)) ∧
         12 ≤ (queueOf 11 z).entries.length ∧ (queueOf 10 z).entries.length < 12) := by decide +kernel

/-- The data-out pin: under RESET, under PRSTx, without a transaction; in a read, in an address byte, in a write, after a
command, and in a transaction the part ignores. -/
theorem witness_InterruptAndWakeOutputs :
    ({ run with resetPin := true } : State).resetPin = true ∧ ((after (.prstxAssert .d) run).port .d).prst = true ∧
      (run.port .a).transaction = .idle ∧ (run.resetPin = false ∧ (run.port .a).prst = false) ∧
      ((reading run .a 0x0F).port .a).transaction = .read 0x0F { value := 0x22, effect := .none } ∧
      ((after (.chipSelectAssert .a) run).port .a).transaction = .address ∧
      ((writing run .a 0x10).port .a).transaction = .write 0x10 ∧
      ((after (.doze .a 0) (issuing run .a .doze [])).port .a).transaction = .discarding ∧
      ((after (.chipSelectAssert .a) State.reset).port .a).transaction = .ignored := by decide +kernel

/-! ### A sound state, for the laws and their premises -/

/-- Slot 5: a record of port D, depth 1, whose staging cell is owed. -/
def record5 : Record :=
  { key := 0x050011, depth := 1, versions := [3], next := .owed 4, spares := [], lastSequence := 7, period := 0,
    autoAnswer := true, life := .produced .live .d none, watch := none }

/-- RUN with: A holding an update open and fetching a detached cell; B copying a version of slot 3 and waiting on it; C in
DOZE fetching an owed cell; D in LEAVING with slot 5; and one job. Port A's COMMIT_GROUP is at the front of the queue. -/
def rich : State :=
  { run with
    pending := [.commitGroup .a 0],
    portA := { joinedUnit with
      openList := [3], stagingPointer := some 3, fetch := .inFlight .waiting 5,
      transaction := .write Command.commitGroup.address },
    portB := { joinedUnit with fetch := .inFlight .copying 0 },
    portC := { joinedUnit with state := .doze, fetch := .inFlight .waiting 4 },
    portD := { PortUnit.reset with state := .leaving },
    slots := ((Vector.replicate 64 Slot.free).set 3 { incarnation := 4, record := some openRecord }).set 5
      { incarnation := 1, record := some record5 },
    cells := ((((Vector.replicate 384 Cell.blank).set 0 { content := content1, pins := 1 }).set 3
      { content := content1, pins := 0 }).set 4 { content := content1, pins := 1 }).set 5
      { content := content1, pins := 1 },
    free := (List.finRange 384).drop 6, detached := [5], jobs := [.mode 1 [.a]], path := some (.port .b),
    lastGranted := .port .b, requests := (Vector.replicate 16 none).set 0 (some (entryOf .b)) }

theorem rich_record (k : SlotNo) :
    rich.record k = if k = 3 then some openRecord else if k = 5 then some record5 else none := by
  revert k
  decide +kernel

theorem rich_entry (i : EntryNo) : rich.entry i = if i = 0 then some (entryOf .b) else none := by
  revert i
  decide +kernel

/-- What holds of both records holds of every record. -/
theorem rich_records {P : SlotNo → Record → Prop} (h3 : P 3 openRecord) (h5 : P 5 record5) :
    ∀ k r, rich.record k = some r → P k r := by
  intro k r h
  rw [rich_record] at h
  split at h
  · cases h; subst_vars; exact h3
  · split at h
    · cases h; subst_vars; exact h5
    · cases h

theorem rich_ports {P : Port → Prop} (a : P .a) (b : P .b) (c : P .c) (d : P .d) : ∀ p, P p := by
  intro p
  cases p <;> assumption

theorem rich_held : rich.heldCells = (List.finRange 384).drop 6 ++ [5] ++ [0, 2, 1, 3, 4] := by
  have h : (allSlots.flatMap fun k =>
      match rich.record k with
      | some r => r.cells
      | none => []) = [0, 2, 1, 3, 4] := by decide +kernel
  exact congrArg (fun l => (List.finRange 384).drop 6 ++ [5] ++ l) h

theorem first_cells : (List.finRange 384).take 6 = [0, 1, 2, 3, 4, 5] := by decide +kernel

/-- The held cells are all the cells, each once. -/
theorem rich_held_perm : rich.heldCells.Perm (List.finRange 384) := by
  have h : ([5] ++ [0, 2, 1, 3, 4] : List CellNo).Perm ((List.finRange 384).take 6) := by
    rw [first_cells]
    decide
  rw [rich_held, List.append_assoc]
  refine (List.Perm.append_left _ h).trans (List.perm_append_comm.trans ?_)
  rw [List.take_append_drop]

theorem rich_cells : CellLaw rich := by
  refine ⟨fun c => ?_, rich_records (by decide +kernel) (by decide +kernel)⟩
  rw [rich_held_perm.count_eq]
  exact List.count_eq_one_of_mem (List.nodup_finRange 384) (List.mem_finRange c)

theorem rich_pin (c : CellNo) : (rich.cell c).pins = if c = 0 ∨ c = 4 ∨ c = 5 then 1 else 0 := by
  simp only [rich, State.cell, Fin.getElem_fin, Vector.getElem_set, Vector.getElem_replicate]
  by_cases h5 : c = 5
  · subst h5; rfl
  · by_cases h4 : c = 4
    · subst h4; rfl
    · by_cases h3 : c = 3
      · subst h3; rfl
      · by_cases h0 : c = 0
        · subst h0; rfl
        · have n5 : ¬ 5 = c.val := fun e => h5 (Fin.ext e.symm)
          have n4 : ¬ 4 = c.val := fun e => h4 (Fin.ext e.symm)
          have n3 : ¬ 3 = c.val := fun e => h3 (Fin.ext e.symm)
          have n0 : ¬ 0 = c.val := fun e => h0 (Fin.ext e.symm)
          simp only [n5, n4, n3, n0, h5, h4, h0, if_false, or_self]
          rfl

theorem rich_free (c : CellNo) (h : c ∈ rich.free) : c ≠ 0 ∧ c ≠ 4 ∧ c ≠ 5 := by
  have apart := List.disjoint_take_drop (List.nodup_finRange 384) (le_refl 6)
  refine ⟨fun e => ?_, fun e => ?_, fun e => ?_⟩ <;> refine apart ?_ h <;> rw [first_cells, e] <;> decide

theorem rich_pins : PinLaw rich := by
  refine ⟨fun c => ?_, fun c h => ?_, by decide +kernel, rich_records ⟨by decide +kernel, ?_, ?_⟩
    ⟨by decide +kernel, ?_, ?_⟩⟩
  · have e : (allPorts.filter fun p => (rich.port p).fetch.pinned == some c) =
        (if 5 = c then [Port.a] else []) ++ (if 0 = c then [Port.b] else []) ++ (if 4 = c then [Port.c] else []) := by
      by_cases h5 : 5 = c
      · subst h5; decide
      · by_cases h4 : 4 = c
        · subst h4; decide
        · by_cases h0 : 0 = c
          · subst h0; decide
          · have fa : (rich.port .a).fetch.pinned = some 5 := rfl
            have fb : (rich.port .b).fetch.pinned = some 0 := rfl
            have fc : (rich.port .c).fetch.pinned = some 4 := rfl
            have fd : (rich.port .d).fetch.pinned = none := rfl
            simp [allPorts, fa, fb, fc, fd, h5, h4, h0]
    rw [rich_pin, e]
    by_cases h5 : 5 = c
    · subst h5; decide
    · by_cases h4 : 4 = c
      · subst h4; decide
      · by_cases h0 : 0 = c
        · subst h0; decide
        · simp [h5, h4, h0, Ne.symm h5, Ne.symm h4, Ne.symm h0]
  · obtain ⟨h0, h4, h5⟩ := rich_free c h
    rw [rich_pin]
    simp [h0, h4, h5]
  · intro c u h; cases h; decide +kernel
  · intro c h; cases h
  · intro c u h; cases h
  · intro c h; cases h; decide +kernel

theorem rich_versions : VersionLaw rich := by
  refine rich_records ⟨by decide +kernel, trivial, ?_, ?_⟩ ⟨by decide +kernel, trivial, ?_, ?_⟩
  · intro c h; cases h; decide +kernel
  · exact ⟨by decide, by decide⟩
  · intro c h; cases h; decide +kernel
  · exact ⟨by decide, by decide⟩

theorem rich_updates : UpdateLaw rich := by
  refine ⟨rich_ports ?_ ?_ ?_ ?_, fun k r u hr => ?_⟩
  · refine ⟨by decide, by decide, ?_, ?_, fun h => absurd (joined_of (.inl rfl)) h⟩
    · intro k h; cases h; decide
    · intro k h
      have : k = 3 := by simpa [rich, State.port] using h
      subst this
      exact ⟨openRecord, by decide +kernel, by decide, by decide⟩
  all_goals first
    | exact ⟨by decide, by decide, fun _ h => (nomatch h), fun _ h => (nomatch h), fun _ => rfl⟩
    | skip
  revert u
  refine rich_records (P := fun k r => ∀ u, r.openUpdate = some u →
    u.length ≤ Config.payloadCapacity ∧ ∃ p, r.producer = some p ∧ k ∈ (rich.port p).openList) ?_ ?_ k r hr
  · intro u h
    cases h
    exact ⟨by decide, .a, by decide, by decide⟩
  · intro u h
    cases h

theorem rich_keys : KeyLaw rich := by
  intro i j x y hi hj h
  rw [rich_record] at hi hj
  by_cases i3 : i = 3 <;> by_cases j3 : j = 3
  · rw [i3, j3]
  · simp only [i3, j3, if_true, if_false] at hi hj
    split at hj <;> cases hj
    cases hi
    exact absurd h (by decide)
  · simp only [i3, j3, if_true, if_false] at hi hj
    split at hi <;> cases hi
    cases hj
    exact absurd h (by decide)
  · simp only [i3, j3, if_false] at hi hj
    split at hi <;> cases hi
    split at hj <;> cases hj
    subst_vars
    rfl

theorem rich_sound : Sound rich where
  cells := rich_cells
  pins := rich_pins
  versions := rich_versions
  updates := rich_updates
  keys := rich_keys
  queues := rich_ports ⟨by decide, by decide, by decide, by decide, by decide, by decide, by decide⟩
    ⟨by decide, by decide, by decide, by decide, by decide, by decide, by decide⟩
    ⟨by decide, by decide, by decide, by decide, by decide, by decide, by decide⟩
    ⟨by decide, by decide, by decide, by decide, by decide, by decide, by decide⟩
  path := by
    refine ⟨by decide, rich_ports ?_ ?_ ?_ ?_, fun h => absurd h (by decide), fun h => absurd h (by decide)⟩
    · exact ⟨fun h => absurd h (by decide), fun ⟨c, h⟩ => by cases h⟩
    · exact ⟨fun _ => ⟨0, rfl⟩, fun _ => rfl⟩
    · exact ⟨fun h => absurd h (by decide), fun ⟨c, h⟩ => by cases h⟩
    · exact ⟨fun h => absurd h (by decide), fun ⟨c, h⟩ => by cases h⟩
  requests := by
    refine ⟨rich_ports (by decide +kernel) (by decide +kernel) (by decide +kernel) (by decide +kernel), ?_, ?_⟩
    · intro i j x y hi hj _ _
      rw [rich_entry] at hi hj
      split at hi <;> cases hi
      split at hj <;> cases hj
      subst_vars
      rfl
    · intro i e h
      rw [rich_entry] at h
      split at h <;> cases h
      exact ⟨by decide +kernel, openRecord, .a, by decide +kernel, by decide, by decide⟩
  ports := by
    refine rich_ports ?_ ?_ ?_ ?_
    · exact ⟨⟨fun _ => joined_of (.inl rfl), fun _ => rfl⟩, fun h => absurd h (by decide),
        fun h => absurd h (by decide), fun h => absurd (joined_of (.inl rfl)) h, fun h => absurd h (by decide),
        fun h => absurd h (by decide)⟩
    · exact ⟨⟨fun _ => joined_of (.inl rfl), fun _ => rfl⟩, fun h => absurd h (by decide),
        fun h => absurd h (by decide), fun h => absurd (joined_of (.inl rfl)) h, fun h => absurd h (by decide),
        fun h => absurd h (by decide)⟩
    · exact ⟨⟨fun _ => joined_of (.inr rfl), fun _ => rfl⟩, fun h => absurd h (by decide),
        fun h => absurd h (by decide), fun h => absurd (joined_of (.inr rfl)) h, fun h => absurd h (by decide),
        fun h => absurd h (by decide)⟩
    · exact ⟨⟨fun h => absurd h (by decide), fun h => absurd h (not_joined_of (by decide))⟩,
        fun h => absurd h (by decide), fun h => absurd h (by decide),
        fun _ => ⟨rfl, rfl, rfl, by decide +kernel⟩, fun h => absurd h (by decide), fun _ => by decide +kernel⟩
  mode := ⟨by decide, rich_ports rfl rfl rfl rfl⟩

/-- The premises of every law hold of a state that steps. -/
theorem witness_laws : Sound rich ∧ ∃ t, step rich = .next t := ⟨rich_sound, _, rfl⟩

/-- A LEAVING entry with a fetch in flight: A waits with a detached cell pinned, B copies a version, and C, in DOZE, waits
with an owed cell pinned. -/
theorem witness_LeaveAndPrstxMakeTheLeavingEntry_fetching :
    ∀ p ∈ [Port.a, .b, .c],
      rich.Joined p ∧ (rich.port p).prst = false ∧ ((rich.port p).fetch.pinned.map fun c => (rich.cell c).pins) = some 1 ∧
        (issuing rich p .leave []).Issues p .leave ∧ (issuing rich p .leave []).Joined p := by
  intro p hp
  refine ⟨joined_of ?_, ?_, ?_, issues_of ?_, joined_of ?_⟩ <;> revert p <;> decide +kernel

/-- A group commit in a sound state: slot 3 on the open list, no overrun, room for the job. -/
theorem witness_CommitGroupCommitsEveryMember :
    rich.SlotCommand .a .commitGroup ∧ UpdateLaw rich ∧ CellLaw rich ∧
      (rich.port .a).openList ≠ [] ∧
      (∀ k ∈ (rich.port .a).openList, ∀ r ∈ rich.record k, ∀ x ∈ r.openUpdate, x.overrun = false) ∧
      rich.jobs.length < 16 ∧
      (3 ∈ (rich.port .a).openList ∧ rich.record 3 = some openRecord ∧
        openRecord.openUpdate = some { length := 2, overrun := false }) ∧ (5 : SlotNo) ∉ (rich.port .a).openList := by
  refine ⟨slot_of (by decide +kernel), rich_updates, rich_cells, by decide +kernel, ?_, by decide +kernel⟩
  intro k _ r hr
  refine rich_records (P := fun _ r => ∀ x ∈ r.openUpdate, x.overrun = false) ?_ ?_ k r hr
  · intro x hx; cases hx; rfl
  · intro x hx; cases hx

/-- A pinned version, an owed cell, a detached cell, and a cell pinned twice; a copy that holds the path. -/
theorem witness_CopyCompletionAndUnpin :
    (rich.path = some (.port .b) ∧ (rich.port .b).fetch = .inFlight .copying 0) ∧ run.path = none ∧ CellLaw rich ∧
      ((rich.cell 5).pins = 1 ∧ (5 : CellNo) ∈ rich.detached) ∧
      ((rich.cell 4).pins = 1 ∧ rich.record 5 = some record5 ∧ record5.next = .owed 4) ∧
      ((rich.cell 0).pins = 1 ∧ rich.record 3 = some openRecord ∧ (0 : CellNo) ∈ openRecord.versions) ∧
      (CellLaw { rich with cells := rich.cells.set 3 { content := content1, pins := 2 } } ∧
        1 < (State.cell { rich with cells := rich.cells.set 3 { content := content1, pins := 2 } } 3).pins) :=
  ⟨by decide +kernel, rfl, rich_cells, by decide +kernel, by decide +kernel, by decide +kernel, rich_cells,
    by decide +kernel⟩

theorem witness_SettingsStandInRun :
    run.mode = .run ∧ (Instr.setExchange .a 0).resetsPart = false ∧
      (exec (.setExchange .a 0) (issuing run .a .setExchange [0, 0, 1]) =
        .next (after (.setExchange .a 0) (issuing run .a .setExchange [0, 0, 1]))) :=
  ⟨rfl, rfl, rfl⟩

theorem witness_PinnedAndListedCellsAreNotWritten :
    CellLaw rich ∧ PinLaw rich ∧ (Instr.commitGroup .a 0).resetsPart = false ∧ 0 < (rich.cell 4).pins ∧
      rich.record 3 = some openRecord ∧ (0 : CellNo) ∈ openRecord.versions ∧
      exec (.commitGroup .a 0) rich = .next (after (.commitGroup .a 0) rich) :=
  ⟨rich_cells, rich_pins, rfl, by decide +kernel, by decide +kernel, by decide, rfl⟩

theorem witness_OnePortsBytesLeaveTheOthersWindow :
    (Instr.commit .a 0).byteOf = some .a ∧ Port.b ≠ .a ∧
      exec (.commit .a 0) (issuing opened .a .commit [3, 4]) =
        .next (after (.commit .a 0) (issuing opened .a .commit [3, 4])) :=
  ⟨rfl, by decide, rfl⟩

end Sys2Proof.Tests
end

section
/-! PROOF. What the issue of a slot command answers once it passes the port check and the mode check. -/

namespace Sys2Proof.Machine

/-- The byte that issues a command completes at the command's address. -/
theorem State.Issues.writesAt {s : State} {p : Port} {c : Command} (h : s.Issues p c) :
    s.writesAt p c.address = true := by
  obtain ⟨hreset, hprst, htrans⟩ := h
  exact (s.writesAt_iff p c.address).mpr ⟨by simp [State.decodes, hreset, hprst], htrans⟩

/-- A joined port is ACTIVE once DOZE has ended (R154). -/
theorem State.Joined.endDoze_state {s : State} {p : Port} (h : s.Joined p) : (s.port p).endDoze.state = .active := by
  obtain hactive | hdoze := h
  · simp [hactive]
  · simp [hdoze]

/-- In RUN an ACTIVE port's slot command passes the port check and the mode check (R150, R151). -/
theorem Command.check_active_run {c : Command} (hc : c.cls = .slot) : c.check .active .run = none := by
  have hjoin : c ≠ .join := by rintro rfl; cases hc
  simp [Command.check, Command.portCheck, Command.modeCheck, hjoin, hc]

/-- A slot command is answered by the block that owns it (R150, R151, R169). -/
theorem State.SlotCommand.issue {s : State} {p : Port} {c : Command} (h : s.SlotCommand p c) (hc : c.cls = .slot)
    (body : State → Reply) : s.issue p c body = (s.handCommand p).conclude p (body (s.handCommand p)) := by
  obtain ⟨hissues, hjoined, hrun⟩ := h
  refine State.issue_of_passed body hissues.writesAt ?_
  rw [hjoined.endDoze_state, hrun]
  exact Command.check_active_run hc

/-- A command taken in hand finds the argument bytes as they were written. -/
theorem State.args_handCommand (s : State) (p : Port) : ((s.handCommand p).port p).args = (s.port p).args := by
  simp

theorem State.arg8_handCommand (s : State) (p : Port) (i : Fin 12) :
    ((s.handCommand p).port p).arg8 i = (s.port p).arg8 i := by
  simp only [PortUnit.arg8, State.args_handCommand]

/-- An argument of 0 or 1 is rejected exactly when the byte is above 1. -/
theorem boolArg_eq_none_iff {b : Byte} : boolArg b = none ↔ 1 < b.toNat := by
  have h0 : b = 0 ↔ b.toNat = 0 := by simp [BitVec.toNat_eq]
  have h1 : b = 1 ↔ b.toNat = 1 := by simp [BitVec.toNat_eq]
  by_cases hb0 : b = 0
  · simp [boolArg, hb0]
  · by_cases hb1 : b = 1
    · simp [boolArg, hb1]
    · simp only [boolArg, hb0, hb1, if_false, true_iff]
      rw [h0] at hb0
      rw [h1] at hb1
      omega

/-- The queue of jobs is full at 16 of them (R54). -/
theorem State.hasRoom_eq_false_iff {s : State} : s.hasRoom = false ↔ 16 ≤ s.jobs.length := by
  rw [State.hasRoom, decide_eq_false_iff_not, not_lt, Config.jobCapacity]

/-- A search for a key finds a slot exactly when some record holds the key (R2). -/
theorem State.slotWithKey_isSome_iff {s : State} {key : Key} :
    (s.slotWithKey key).isSome = true ↔ ∃ k, ∃ r ∈ s.record k, r.key = key := by
  simp only [State.slotWithKey, List.find?_isSome, mem_allSlots, true_and]
  refine exists_congr fun k => ?_
  cases s.record k with
  | none => simp
  | some r => simp

/-- There is no lowest FREE slot exactly when no slot is FREE (R17). -/
theorem State.lowestFreeSlot_eq_none_iff {s : State} : s.lowestFreeSlot = none ↔ ∀ k, s.record k ≠ none := by
  simp [State.lowestFreeSlot]

end Sys2Proof.Machine
end

section
/-! PROOF. CLAIM: what its block answers at each of the five checks of R15. -/

namespace Sys2Proof.Machine

/-- The arguments of a CLAIM that its first check accepts: depth, period and auto-answer in their ranges (R15). -/
def PortUnit.ClaimArgsValid (u : PortUnit) : Prop :=
  1 ≤ (u.arg8 3).toNat ∧ (u.arg8 3).toNat ≤ 6 ∧ (u.arg32 4 5 6 7).toNat ≤ 16777216 ∧ (u.arg8 8).toNat ≤ 1

/-- The key that the arguments of a CLAIM name is held by a record (R2). -/
def State.ClaimKeyHeld (s : State) (p : Port) : Prop := ∃ k, ∃ r ∈ s.record k, r.key = (s.port p).arg24 0 1 2

/-- The arguments are valid exactly when they pass the tests that the block makes of them. -/
theorem PortUnit.claimArgsValid_iff {u : PortUnit} :
    u.ClaimArgsValid ↔ (∃ auto, boolArg (u.arg8 8) = some auto) ∧
      ¬ ((u.arg8 3).toNat = 0 ∨ 6 < (u.arg8 3).toNat ∨ Config.maxPeriod < (u.arg32 4 5 6 7).toNat) := by
  have hauto : (∃ auto, boolArg (u.arg8 8) = some auto) ↔ (u.arg8 8).toNat ≤ 1 := by
    rw [← Option.ne_none_iff_exists', ne_eq, boolArg_eq_none_iff, not_lt]
  rw [hauto]
  simp only [PortUnit.ClaimArgsValid, Config.maxPeriod]
  omega

theorem State.claimBody_of_invalid {s : State} {p : Port} (hargs : ¬ (s.port p).ClaimArgsValid) :
    s.claimBody p = .refuse .badArg := by
  rw [PortUnit.claimArgsValid_iff] at hargs
  cases hauto : boolArg ((s.port p).arg8 8) with
  | none => simp only [State.claimBody, hauto]
  | some auto =>
    have hrange := not_not.mp fun hrange => hargs ⟨⟨auto, hauto⟩, hrange⟩
    simp only [State.claimBody, hauto, hrange, if_true]

theorem State.claimBody_of_keyHeld {s : State} {p : Port} (hargs : (s.port p).ClaimArgsValid)
    (hkey : s.ClaimKeyHeld p) : s.claimBody p = .refuse .keyInUse := by
  obtain ⟨⟨auto, hauto⟩, hrange⟩ := PortUnit.claimArgsValid_iff.mp hargs
  simp only [State.claimBody, hauto, hrange, if_false, State.slotWithKey_isSome_iff.mpr hkey, if_true]

theorem State.claimBody_of_noFreeSlot {s : State} {p : Port} (hargs : (s.port p).ClaimArgsValid)
    (hkey : ¬ s.ClaimKeyHeld p) (hslots : ∀ k, s.record k ≠ none) : s.claimBody p = .refuse .noSlot := by
  obtain ⟨⟨auto, hauto⟩, hrange⟩ := PortUnit.claimArgsValid_iff.mp hargs
  have hsearch := Bool.eq_false_iff.mpr (mt State.slotWithKey_isSome_iff.mp hkey)
  simp only [State.claimBody, hauto, hrange, hsearch, if_false, Bool.false_eq_true,
    State.lowestFreeSlot_eq_none_iff.mpr hslots]

/-- With valid arguments, an unheld key and a FREE slot, the pool and then the job queue decide. -/
theorem State.claimBody_of_freeSlot {s : State} {p : Port} (hargs : (s.port p).ClaimArgsValid)
    (hkey : ¬ s.ClaimKeyHeld p) (hslots : ¬ ∀ k, s.record k ≠ none) :
    ∃ k auto, s.claimBody p =
      if s.free.length < ((s.port p).arg8 3).toNat + 1 then .refuse .noCells
      else if s.hasRoom then
        s.claimSlot p k ((s.port p).arg24 0 1 2) ((s.port p).arg8 3).toNat ((s.port p).arg32 4 5 6 7) auto
      else .refuse .retry := by
  obtain ⟨⟨auto, hauto⟩, hrange⟩ := PortUnit.claimArgsValid_iff.mp hargs
  have hsearch := Bool.eq_false_iff.mpr (mt State.slotWithKey_isSome_iff.mp hkey)
  obtain ⟨k, hk⟩ := Option.ne_none_iff_exists'.mp (mt State.lowestFreeSlot_eq_none_iff.mp hslots)
  exact ⟨k, auto, by simp only [State.claimBody, hauto, hrange, hsearch, if_false, Bool.false_eq_true, hk]⟩

theorem State.claimBody_of_fewCells {s : State} {p : Port} (hargs : (s.port p).ClaimArgsValid)
    (hkey : ¬ s.ClaimKeyHeld p) (hslots : ¬ ∀ k, s.record k ≠ none)
    (hcells : s.free.length < ((s.port p).arg8 3).toNat + 1) : s.claimBody p = .refuse .noCells := by
  obtain ⟨k, auto, hbody⟩ := State.claimBody_of_freeSlot hargs hkey hslots
  rw [hbody, if_pos hcells]

theorem State.claimBody_of_fullQueue {s : State} {p : Port} (hargs : (s.port p).ClaimArgsValid)
    (hkey : ¬ s.ClaimKeyHeld p) (hslots : ¬ ∀ k, s.record k ≠ none)
    (hcells : ((s.port p).arg8 3).toNat + 1 ≤ s.free.length) (hjobs : 16 ≤ s.jobs.length) :
    s.claimBody p = .refuse .retry := by
  obtain ⟨k, auto, hbody⟩ := State.claimBody_of_freeSlot hargs hkey hslots
  simp [hbody, not_lt.mpr hcells, State.hasRoom_eq_false_iff.mpr hjobs]

/-- The end of DOZE leaves the arguments as valid as they were. -/
theorem State.claimArgsValid_handCommand {s : State} {p : Port} :
    ((s.handCommand p).port p).ClaimArgsValid ↔ (s.port p).ClaimArgsValid := by
  simp only [PortUnit.ClaimArgsValid, PortUnit.arg8, PortUnit.arg32, State.args_handCommand]

/-- The end of DOZE leaves the records and the named key as they were. -/
theorem State.claimKeyHeld_handCommand {s : State} {p : Port} :
    (s.handCommand p).ClaimKeyHeld p ↔ s.ClaimKeyHeld p := by
  simp only [State.ClaimKeyHeld, PortUnit.arg24, State.args_handCommand, State.record_handCommand]

/-- A CLAIM that its block refuses changes nothing but the end of DOZE, the transaction and the result. -/
theorem State.SlotCommand.refuses_claim {s : State} {p : Port} {x : Result} (v : Byte) (h : s.SlotCommand p .claim)
    (hbody : (s.handCommand p).claimBody p = .refuse x) : Refuses (.claim p v) p s x := by
  have hexec : exec (.claim p v) s = .next (s.issue p .claim (State.claimBody p)) := rfl
  rw [Refuses, hexec, h.issue rfl, hbody, State.conclude]

/-- Settles O20: each check's answer by the block, in the state that holds the command in hand, where every check reads
what it reads before (R15). -/
theorem claimIsCheckedInOrder : Obligations.ClaimIsCheckedInOrder := by
  intro p v s hcmd u depth bad held full
  have hbad : bad ↔ ¬ ((s.handCommand p).port p).ClaimArgsValid := not_congr State.claimArgsValid_handCommand.symm
  have hheld : held ↔ (s.handCommand p).ClaimKeyHeld p := State.claimKeyHeld_handCommand.symm
  have hfull : full ↔ ∀ k, (s.handCommand p).record k ≠ none := by simp only [State.record_handCommand, full]
  have hdepth : (((s.handCommand p).port p).arg8 3).toNat = depth := by rw [State.arg8_handCommand]; rfl
  have hfree : (s.handCommand p).free = s.free := by simp
  have hjobs : (s.handCommand p).jobs = s.jobs := by simp
  rw [hbad, hheld, hfull, ← hdepth, ← hfree, ← hjobs, not_not]
  exact ⟨
    fun hargs => hcmd.refuses_claim v (State.claimBody_of_invalid hargs),
    fun hargs hkey => hcmd.refuses_claim v (State.claimBody_of_keyHeld hargs hkey),
    fun hargs hkey hslots => hcmd.refuses_claim v (State.claimBody_of_noFreeSlot hargs hkey hslots),
    fun hargs hkey hslots hcells => hcmd.refuses_claim v (State.claimBody_of_fewCells hargs hkey hslots hcells),
    fun hargs hkey hslots hcells hroom =>
      hcmd.refuses_claim v (State.claimBody_of_fullQueue hargs hkey hslots hcells hroom)⟩

end Sys2Proof.Machine
end

section
/-! PROOF. The limit watch on a present sample: its side, the run, and the confirmation (R127, R128). -/

namespace Sys2Proof.Machine

theorem Watch.side_eq_low_iff {w : Watch} {y : Int} : w.side y = .low ↔ y ≤ w.low := by
  by_cases hlow : y ≤ w.low
  · simp [Watch.side, hlow]
  · by_cases hhigh : w.high ≤ y <;> simp [Watch.side, hlow, hhigh]

/-- A value at the high limit is not taken for LOW, since the low limit is below it (R127). -/
theorem Watch.side_eq_high_iff {w : Watch} {y : Int} (h : w.low < w.high) : w.side y = .high ↔ w.high ≤ y := by
  by_cases hhigh : w.high ≤ y
  · have hlow : ¬ y ≤ w.low := by omega
    simp [Watch.side, hlow, hhigh]
  · by_cases hlow : y ≤ w.low <;> simp [Watch.side, hlow, hhigh]

/-- A side that is neither LOW nor HIGH is INSIDE, so that these two tests tell the sides apart. -/
theorem Side.eq_of_low_iff_of_high_iff {a b : Side} (hlow : a = .low ↔ b = .low) (hhigh : a = .high ↔ b = .high) :
    a = b := by
  cases a with
  | low => exact (hlow.mp rfl).symm
  | high => exact (hhigh.mp rfl).symm
  | inside =>
    cases b with
    | inside => rfl
    | low => exact hlow.mpr rfl
    | high => exact hhigh.mpr rfl

/-- A present sample leaves its side as the candidate; the run grows up to 7 on the same side and restarts at 1 on
another (R128, step 1). -/
theorem Watch.count_eq (w : Watch) (side : Side) :
    w.count side =
      { w with candidate := side, run := if side = w.candidate then min (w.run + 1) 7 else 1 } := by
  by_cases hsame : side = w.candidate
  · simp [Watch.count, hsame, Config.maxRun]
  · simp [Watch.count, hsame]

/-- On a present sample the counted run and the state before decide the confirmation (R128, step 2). -/
theorem Watch.evaluate_of_present {w : Watch} {x : Content} {y : Int} (h : w.sample x = some y) :
    w.evaluate x =
      if w.confirm ≤ (w.count (w.side y)).run ∧ w.side y ≠ w.state then
        ({ w.count (w.side y) with state := w.side y }, some (w.side y))
      else (w.count (w.side y), none) := by
  simp only [Watch.evaluate, h, Watch.count_eq]

/-- Settles O32: the side is the one the limits give, and the evaluation is the counted watch, confirmed or not. -/
theorem watchConfirmsASide : Obligations.WatchConfirmsASide := by
  intro w x y side hsample hlimits hlow hhigh run
  have hside : w.side y = side :=
    Side.eq_of_low_iff_of_high_iff (Watch.side_eq_low_iff.trans hlow.symm)
      ((Watch.side_eq_high_iff hlimits).trans hhigh.symm)
  have heval := Watch.evaluate_of_present hsample
  rw [hside, Watch.count_eq] at heval
  exact ⟨fun hconfirmed => heval.trans (if_pos hconfirmed), fun hwaiting => heval.trans (if_neg hwaiting)⟩

end Sys2Proof.Machine
end

section
/-! SUPPORT. What a command can do, said once: every command but a reset is a sequence of small moves, each with what
holds where it is made. An invariant is then one small goal for each move. -/

namespace Sys2Proof.Machine

/-! ### The moves -/

/-- What a byte, a result, the end of DOZE and the pins change of a port, seen from the laws: DOZE may end, READY may
end, and the head of the queue may be popped (R77, R96, R97, R154). -/
structure PortUnit.Touched (u w : PortUnit) : Prop where
  state : w.state = u.state ∧ w.queue.wakePending = u.queue.wakePending ∨
    u.state = .doze ∧ w.state = .active ∧ w.queue.wakePending = false
  vote : w.vote = u.vote
  openList : w.openList = u.openList
  stagingPointer : w.stagingPointer = u.stagingPointer
  fetch : w.fetch = u.fetch ∨ u.fetch = .ready ∧ w.fetch = .idle
  filters : w.filters = u.filters
  entries : w.queue.entries = u.queue.entries ∨ w.queue.entries = u.queue.entries.tail
  depth : w.queue.depth = u.queue.depth
  threshold : w.queue.threshold = u.queue.threshold
  accepting : w.queue.accepting = u.queue.accepting
  irq : w.queue.irq = u.queue.irq

/-- The request table after some entries went, and nothing else. -/
def State.withEntries (s : State) (v : Vector (Option Entry) 16) : State := { s with requests := v }

/-- Every vote is cleared (R160, R162). -/
def State.votesCleared (s : State) : State := s.updatePorts fun _ u => { u with vote := false }

/-- The RUN transition but for its job (R162). -/
def State.running (s : State) : State := { s.votesCleared with mode := .run, etc := 0, prescaler := 0, scan := 0 }

/-- A settings write but for its job (R160). -/
def State.generationRaised (s : State) : State := { s.votesCleared with generation := s.generation + 1 }

/-- A CLAIM but for its job (R16). -/
def State.claimed (s : State) (p : Port) (k : SlotNo) (key : Key) (depth : Nat) (period : Time) (auto : Bool)
    (c : CellNo) (rest : List CellNo) : State :=
  { s with free := rest.drop depth }.setSlot k
    { incarnation := (s.slot k).incarnation + 1,
      record := some (claimedRecord p key depth period auto s.etc c (rest.take depth)) }

/-- The orphaning of a slot of port `p` but for its job (R21, R157). -/
def State.orphaned (s : State) (p : Port) (k : SlotNo) (r : Record) : State :=
  (s.setRecord k (some { r with life := .orphaned s.etc })).settleLeaving p

/-- The LEAVING entry up to the check of the barrier (R156). -/
def State.leftBy (s : State) (p : Port) : State :=
  ((((((s.port p).openList.foldl State.closeOnSlot s).removeEntries fun e => e.requester == p).updatePort p
    PortUnit.left).cancelFetch (s.port p).fetch).settleLeaving p)

/-- No entry waits on a slot with its incarnation (R139). -/
def State.NoneWaitsOn (s : State) (k : SlotNo) : Prop :=
  ∀ i e, s.entry i = some e → e.waitsOn k (s.slot k).incarnation = false

/-- The moves that change neither the jobs nor the holder of the path, nor who waits for it. The index is the port whose
command or pin makes the move; none where the part makes it. `opens` says whether an update may be opened (R30). -/
inductive Move (opens : Prop) : Option Port → State → State → Prop where
  | touched {p s w} (h : (s.port p).Touched w) : Move opens (some p) s (s.setPort p w)
  | pins {s} (b c : Bool) : Move opens none s { s with resetPin := b, ready := c }
  | joined {p s} (h : (s.port p).state = .offline) : Move opens (some p) s (s.updatePort p PortUnit.joined)
  | dozed {p s} (h : (s.port p).state = .active) (hm : s.mode = .run) : Move opens (some p) s (s.updatePort p PortUnit.dozed)
  | voted {p s} (h : (s.port p).state = .active) (hm : s.mode = .setup) :
      Move opens (some p) s (s.updatePort p fun u => { u with vote := true })
  | running {a s} (hm : s.mode = .setup) : Move opens a s s.running
  | exchangeSet {p s} (hm : s.mode = .setup) (x : TickPeriod) (y : Half) (z : Time) :
      Move opens (some p) s { s with tickPeriod := x, answerTimeout := y, orphanHold := z }
  | generationRaised {p s} (hm : s.mode = .setup) : Move opens (some p) s s.generationRaised
  | queueSet {p s d t} (hm : s.mode = .setup) (hd : legalDepth d = true) (ht : 1 ≤ t ∧ t ≤ d - 1)
      (hf : (s.port p).queue.fitsDepth d = true) :
      Move opens (some p) s (s.updatePort p fun u => { u with queue := u.queue.resized d t })
  | filtersSet {p s} (h : (s.port p).state = .active) (fs : Vector Filter 8) :
      Move opens (some p) s (s.updatePort p fun u => { u with filters := fs })
  | irqSet {p s x} (hx : 1 ≤ x.levelAt ∧ x.levelAt ≤ (s.port p).queue.depth) :
      Move opens (some p) s (s.updatePort p fun u => { u with queue := { u.queue with irq := x } })
  | claimed {p s k key depth period auto c rest} (h : (s.port p).state = .active) (hm : s.mode = .run)
      (hd : 1 ≤ depth ∧ depth ≤ 6) (hkey : s.slotWithKey key = none) (hk : s.record k = none)
      (hfree : s.free = c :: rest) (hrest : depth ≤ rest.length) :
      Move opens (some p) s (s.claimed p k key depth period auto c rest)
  | closed {p s k r} (h : (s.port p).state = .active) (hm : s.mode = .run) (hk : s.record k = some r)
      (hp : r.producer = some p) : Move opens (some p) s (s.closeUpdate p k)
  | freed {a s k r} (hm : s.mode = .run) (hk : s.record k = some r)
      (hp : ∀ q, r.producer = some q →
        (s.port q).state = .active ∧ k ∉ (s.port q).openList ∧ s.NoneWaitsOn k) :
      Move opens a s (s.freeSlot k)
  | adopted {p s k r} (h : (s.port p).state = .active) (hm : s.mode = .run) (hk : s.record k = some r)
      (ho : r.isOrphan = true) : Move opens (some p) s (s.setRecord k (some (r.adopted p s.etc)))
  | opened {p s k r c} (h : (s.port p).state = .active) (hm : s.mode = .run) (hk : s.record k = some r)
      (hp : r.producer = some p) (hc : r.next = .staging c none) (hl : (s.port p).openList.length < 8) (ho : opens) :
      Move opens (some p) s ((s.setRecord k (some (r.withUpdate c { length := 0, overrun := false }))).updatePort p fun u =>
        { u with openList := u.openList ++ [k], stagingPointer := some k })
  | pointed {p s k r} (hk : s.record k = some r) (hp : r.producer = some p) (hu : r.openUpdate.isSome = true) :
      Move opens (some p) s (s.updatePort p fun u => { u with stagingPointer := some k })
  | committed {p s k r now tag t m} (h : (s.port p).state = .active) (hm : s.mode = .run) (hk : s.record k = some r)
      (hp : r.producer = some p ∨ k ∈ (s.port p).openList) (ht : s.commitSlot p now tag k = some (t, m)) :
      Move opens (some p) s t
  | grouped {p s} (hl : ∀ k ∈ (s.port p).openList, ∀ r, s.record k = some r → r.openUpdate = none) (n : Byte) :
      Move opens (some p) s (s.updatePort p fun u =>
        { u with groupCounter := n, openList := [], stagingPointer := none })
  | watched {p s k r} (hm : s.mode = .run) (hk : s.record k = some r) (w : Option Watch) :
      Move opens (some p) s (s.setRecord k (some { r with watch := w }))
  | staged {p s k r c u} (hk : s.record k = some r) (hc : r.next = .staging c (some u)) (hl : u.length < 32) (v : Byte) :
      Move opens (some p) s
        ((s.setCell c { s.cell c with content := (s.cell c).content.stage u.length v }).setRecord k
          (some { r with next := .staging c (some { u with length := u.length + 1 }) }))
  | overrun {p s k r c u} (hk : s.record k = some r) (hc : r.next = .staging c (some u)) :
      Move opens (some p) s (s.setRecord k (some { r with next := .staging c (some { u with overrun := true }) }))
  | entered {p s k r q i e} (h : (s.port p).state = .active) (hm : s.mode = .run) (hk : s.record k = some r)
      (hq : r.producer = some q) (hqp : q ≠ p) (hmine : s.hasEntry p k = false) (hi : s.entry i = none)
      (hcount : s.requestCount p < 4)
      (he : e.requester = p ∧ e.slot = k ∧ e.incarnation = (s.slot k).incarnation) :
      Move opens (some p) s (s.setEntry i (some e))
  | entriesLost {a s v} (hv : ∀ i : EntryNo, v[i] = none ∨ v[i] = s.entry i) : Move opens a s (s.withEntries v)
  | ticked {s} (hm : s.mode = .run) : Move opens none s { s with etc := s.etc + 1, prescaler := 0 }
  | counted {s} (hm : s.mode = .run) (hc : s.prescaler + 1 < s.tickPeriod.cycles) :
      Move opens none s { s with prescaler := s.prescaler + 1 }
  | scanned {s} (hm : s.mode = .run) (n : Fin 80) : Move opens none s { s with scan := n }
  | lapsed {s k r x p d} (hm : s.mode = .run) (hk : s.record k = some r) (hr : r.life = .produced x p d)
      (hx : x ≠ .stale) : Move opens none s (s.setRecord k (some { r with life := .produced .stale p d }))
  | orphaned {p s k r} (h : (s.port p).state = .leaving) (hk : s.record k = some r) (hp : r.producer = some p)
      (hw : s.NoneWaitsOn k) : Move opens none s (s.orphaned p k r)

/-- The moves after which the path is granted: a job joins the queue, a fetch begins, ends or is cancelled, or the head
job is handed (R53, R56, R93, R95, R99). -/
inductive Stir : Option Port → State → State → Prop where
  | pushed {a s j} (hr : s.hasRoom = true) (hj : s.mode = .run ∨ j.aboutNoSlot = true ∨ ∃ k, s.record k ≠ none) :
      Stir a s { s with jobs := s.jobs ++ [j] }
  | fetched {p s k r c} (h : (s.port p).state = .active) (hm : s.mode = .run) (hk : s.record k = some r)
      (hc : c ∈ r.versions) (hf : (s.port p).fetch.isInFlight = false) :
      Stir (some p) s ((s.pinCell c).updatePort p fun u => u.fetchTaken k c)
  | left {p s} (h : s.Joined p) : Stir (some p) s (s.leftBy p)
  | distributed {s j rest} (hp : s.path = some .du) (hj : s.jobs = j :: rest) :
      Stir none s { s.distribute j with jobs := rest, path := none }
  | copied {p c s} (hp : s.path = some (.port p)) (hf : (s.port p).fetch = .inFlight .copying c) :
      Stir none s
        { (s.updatePort p fun u => u.delivered (s.cell c).content).unpinCell c with path := none }

/-- A move, a move that calls for a grant, or a grant. -/
inductive Act (opens : Prop) (a : Option Port) (s : State) : State → Prop where
  | move {t} (h : Move opens a s t) : Act opens a s t
  | stir {t} (h : Stir a s t) : Act opens a s t
  | grant : Act opens a s s.grant

/-- What a command does: moves that leave the path alone, or any acts, a grant, and then moves that leave the path
alone. -/
inductive Effect (opens : Prop) (a : Option Port) (s t : State) : Prop where
  | calm (h : Relation.ReflTransGen (Move opens a) s t)
  | granted (u : State) (h : Relation.ReflTransGen (Act opens a) s u) (h' : Relation.ReflTransGen (Move opens a) u.grant t)

/-! ### Effects put together -/

variable {opens : Prop} {a : Option Port} {s t u : State}

theorem Effect.refl : Effect opens a s s := .calm .refl

theorem Effect.of_move (h : Move opens a s t) : Effect opens a s t := .calm (.single h)

/-- An act that calls for a grant, and its grant. -/
theorem Effect.of_stir (h : Stir a s t) : Effect opens a s t.grant := .granted t (.single (.stir h)) .refl

/-- Moves that leave the path alone are acts. -/
theorem Act.of_moves (h : Relation.ReflTransGen (Move opens a) s t) : Relation.ReflTransGen (Act opens a) s t := by
  induction h with
  | refl => exact .refl
  | tail _ h ih => exact ih.tail (.move h)

theorem Effect.acts (h : Effect opens a s t) : Relation.ReflTransGen (Act opens a) s t := by
  cases h with
  | calm h => exact Act.of_moves h
  | granted u h h' => exact (h.tail .grant).trans (Act.of_moves h')

/-- One effect after another. -/
theorem Effect.trans (h : Effect opens a s t) (h' : Effect opens a t u) : Effect opens a s u := by
  cases h' with
  | granted w h₁ h₂ => exact .granted w (h.acts.trans h₁) h₂
  | calm h₁ =>
    cases h with
    | calm h => exact .calm (h.trans h₁)
    | granted w h h₂ => exact .granted w h (h₂.trans h₁)

/-- What every act keeps, every effect keeps. -/
theorem Effect.keeps {L : State → Prop} (move : ∀ s t, Move opens a s t → L s → L t) (stir : ∀ s t, Stir a s t → L s → L t)
    (grant : ∀ s, L s → L s.grant) (h : Effect opens a s t) (hs : L s) : L t := by
  have act : ∀ s t, Act opens a s t → L s → L t := by
    intro s t h hs
    cases h with
    | move h => exact move s t h hs
    | stir h => exact stir s t h hs
    | grant => exact grant s hs
  have acts := h.acts
  clear h
  induction acts with
  | refl => exact hs
  | tail _ h ih => exact act _ _ h ih

end Sys2Proof.Machine
end

section
/-! SUPPORT. Every command but a reset has the effect of its moves. -/

namespace Sys2Proof.Machine

variable {opens : Prop} {a : Option Port} {p : Port} {s t : State}

/-! ### What touches a port and no more -/

/-- A unit changed in no field that another block reads is touched. -/
theorem PortUnit.Touched.of_eq {u w : PortUnit} (h : w = { u with
    args := w.args, result := w.result, rdata := w.rdata, writeDenied := w.writeDenied, groupCounter := w.groupCounter,
    fetchedSlot := w.fetchedSlot, header := w.header, payload := w.payload, valid := w.valid, underrun := w.underrun,
    discarded := w.discarded, timeLatch := w.timeLatch, genLatch := w.genLatch, prst := w.prst,
    transaction := w.transaction }) : u.Touched w := by
  rw [h]
  exact ⟨.inl ⟨rfl, rfl⟩, rfl, rfl, rfl, .inl rfl, rfl, .inl rfl, rfl, rfl, rfl, rfl⟩

theorem PortUnit.Touched.endDoze (u : PortUnit) (x : Transaction) : u.Touched { u.endDoze with transaction := x } where
  state := by cases h : u.state <;> simp [h]
  vote := by simp
  openList := by simp
  stagingPointer := by simp
  fetch := by simp
  filters := by simp
  entries := by cases h : u.state <;> simp [h]
  depth := by cases h : u.state <;> simp [h]
  threshold := by cases h : u.state <;> simp [h]
  accepting := by cases h : u.state <;> simp [h]
  irq := by cases h : u.state <;> simp [h]

/-- The completion of a read byte changes the fetch state from READY to IDLE, or not at all (R96, R97). -/
theorem PortUnit.completed_fetch (u : PortUnit) (b : ReadByte) :
    (u.completed b).fetch = u.fetch ∨ u.fetch = .ready ∧ (u.completed b).fetch = .idle := by
  unfold PortUnit.completed PortUnit.clearSticky
  split
  case h_3 => by_cases h : u.valid - 1 = 0 ∧ u.fetch = .ready <;> simp [h]
  case h_5 => by_cases h : u.fetch = .ready <;> simp [h]
  case h_6 => split <;> simp
  all_goals exact .inl rfl

theorem PortUnit.Touched.completed (u : PortUnit) (b : ReadByte) : u.Touched (u.completed b) where
  state := by simp
  vote := by simp
  openList := by simp
  stagingPointer := by simp
  fetch := u.completed_fetch b
  filters := by simp
  entries := u.completed_entries b
  depth := by simp
  threshold := by simp
  accepting := by simp
  irq := by simp

theorem Move.updated {f : PortUnit → PortUnit} (h : (s.port p).Touched (f (s.port p))) :
    Move opens (some p) s (s.updatePort p f) := .touched h

theorem Move.handed (s : State) (p : Port) : Move opens (some p) s (s.handCommand p) := .updated (.endDoze _ _)

theorem Move.resulted (s : State) (p : Port) (x : Result) (d : List Byte) : Move opens (some p) s (s.setResult p x d) :=
  .updated (.of_eq rfl)

/-! ### A read byte, and a command issued -/

theorem Effect.startByte (s : State) (p : Port) (x : Addr) : Effect opens (some p) s (s.startByte p x) := by
  have capture : Move opens (some p) s (s.fixByte p x).1 := by
    rw [State.fixByte_state]
    exact .updated (.of_eq rfl)
  have read := Move.updated (opens := opens) (s := (s.fixByte p x).1) (p := p)
    (f := fun u => { u with transaction := .read x (s.fixByte p x).2 }) (.of_eq rfl)
  exact (Effect.of_move capture).trans (.of_move read)

theorem Effect.completeByte (s : State) (p : Port) (x : Addr) (b : ReadByte) :
    Effect opens (some p) s (s.completeByte p x b) := by
  refine (Effect.of_move (.updated (f := fun u => u.completed b) (.completed _ b))).trans ?_
  unfold State.completeByte
  cases b.nextInGroup with
  | some b' => exact .of_move (.updated (.of_eq rfl))
  | none => exact Effect.startByte _ p _

theorem Effect.readByteOf (s : State) (p : Port) (row : ReadRow) : Effect opens (some p) s (s.readByteOf p row) := by
  obtain h | ⟨x, b, -, -, -, h⟩ := s.readByteOf_cases p row
  · rw [h]; exact .refl
  · rw [h]; exact Effect.completeByte s p x b

/-- A write byte has its own effect, and then the address advances. -/
theorem Effect.writeByteOf {row : WriteRow} {f : Addr → State → State} (h : ∀ x, Effect opens (some p) s (f x s)) :
    Effect opens (some p) s (s.writeByteOf p row f) := by
  obtain h' | ⟨x, -, -, -, h'⟩ := s.writeByteOf_cases p row f
  · rw [h']; exact .refl
  · rw [h']; exact (h x).trans (.of_move (.updated (.of_eq rfl)))

theorem Effect.stageByte (s : State) (p : Port) (v : Byte) : Effect opens (some p) s (s.stageByte p v) := by
  obtain h | ⟨k, r, c, u, -, hk, hc, ⟨hl, h⟩ | ⟨-, h⟩⟩ := s.stageByte_cases p v <;> rw [h]
  · exact .of_move (.updated (.of_eq rfl))
  · exact .of_move (.staged hk hc hl v)
  · exact .of_move (.overrun hk hc)

/-- A command has the effect of what its block takes: the checks have passed, and the port is no longer in DOZE. -/
theorem Effect.issue {c : Command} {body : State → Reply}
    (h : ∀ t d, c.check ((s.handCommand p).port p).state (s.handCommand p).mode = none →
      body (s.handCommand p) = .take t d → Effect opens (some p) (s.handCommand p) t) :
    Effect opens (some p) s (s.issue p c body) := by
  have hand := Effect.of_move (opens := opens) (Move.handed s p)
  obtain h' | ⟨-, ⟨x, -, h'⟩ | ⟨hc, h'⟩⟩ := s.issue_cases p c body <;> rw [h']
  · exact .refl
  · exact hand.trans (.of_move (.resulted _ p x []))
  · cases hb : body (s.handCommand p) with
    | refuse x => exact hand.trans (.of_move (.resulted _ p x []))
    | take t d => exact (hand.trans (h t d (by simpa using hc) hb)).trans (.of_move (.resulted t p .ok d))

/-- After the end of DOZE no port dozes (R154). -/
theorem State.handCommand_state_ne_doze (s : State) (p : Port) : ((s.handCommand p).port p).state ≠ .doze := by
  simp only [State.port_handCommand, if_true, PortUnit.endDoze_state]
  split <;> simp_all

/-- Past the port check a command other than JOIN is made by an ACTIVE port (R150). -/
theorem Command.active_of_check {c : Command} {x : PortState} {m : Mode} (h : c.check x m = none) (hx : x ≠ .doze)
    (hc : c ≠ .join) : x = .active := by
  cases x with
  | active => rfl
  | doze => exact absurd rfl hx
  | offline => simp [Command.check, Command.portCheck, hc] at h
  | leaving => simp [Command.check, Command.portCheck] at h

/-- Past the port check JOIN is made by a port that is OFFLINE (R150). -/
theorem Command.offline_of_join {x : PortState} {m : Mode} (h : Command.join.check x m = none) : x = .offline := by
  cases x with
  | offline => rfl
  | active => simp [Command.check, Command.portCheck] at h
  | doze => simp [Command.check, Command.portCheck] at h
  | leaving => simp [Command.check, Command.portCheck] at h

/-- Past the mode check a slot command, and DOZE, are made in RUN (R151). -/
theorem Command.run_of_check {c : Command} {x : PortState} {m : Mode} (h : c.check x m = none)
    (hc : c.cls = .slot ∨ c.cls = .dozing) : m = .run := by
  cases m with
  | run => rfl
  | setup =>
    unfold Command.check at h
    split at h
    · exact absurd h (by simp)
    · rcases hc with hc | hc <;> simp [Command.modeCheck, hc] at h

/-- Past the mode check a settings write and GO are made in SETUP (R151). -/
theorem Command.setup_of_check {c : Command} {x : PortState} {m : Mode} (h : c.check x m = none)
    (hc : c.cls = .settings) : m = .setup := by
  cases m with
  | setup => rfl
  | run =>
    unfold Command.check at h
    split at h
    · exact absurd h (by simp)
    · simp [Command.modeCheck, hc] at h

/-- A command of a port that must have joined, with the ACTIVE port its checks leave (R150, R154). -/
theorem Effect.issue_active {c : Command} {body : State → Reply} (hc : c ≠ .join)
    (h : ∀ s t d, (s.port p).state = .active → body s = .take t d →
      c.check (s.port p).state s.mode = none → Effect opens (some p) s t) : Effect opens (some p) s (s.issue p c body) :=
  Effect.issue fun t d hcheck ht =>
    h _ t d (Command.active_of_check hcheck (s.handCommand_state_ne_doze p) hc) ht hcheck

/-- A slot command, or DOZE: its port is ACTIVE and the mode is RUN. -/
theorem Effect.issue_run {c : Command} {body : State → Reply} (hc : c.cls = .slot ∨ c.cls = .dozing)
    (h : ∀ s t d, (s.port p).state = .active → s.mode = .run → body s = .take t d → Effect opens (some p) s t) :
    Effect opens (some p) s (s.issue p c body) :=
  Effect.issue_active (by rintro rfl; simp [Command.cls] at hc) fun s t d ha ht hcheck =>
    h s t d ha (Command.run_of_check hcheck hc) ht

/-- GO and the settings writes: the port is ACTIVE and the mode is SETUP. -/
theorem Effect.issue_setup {c : Command} {body : State → Reply} (hc : c.cls = .settings)
    (h : ∀ s t d, (s.port p).state = .active → s.mode = .setup → body s = .take t d → Effect opens (some p) s t) :
    Effect opens (some p) s (s.issue p c body) :=
  Effect.issue_active (by rintro rfl; simp [Command.cls] at hc) fun s t d ha ht hcheck =>
    h s t d ha (Command.setup_of_check hcheck hc) ht

/-! ### Jobs, the barrier and the settings -/

theorem Effect.admitJob {j : Job} (hr : s.hasRoom = true) (hj : s.mode = .run ∨ j.aboutNoSlot = true ∨ ∃ k, s.record k ≠ none) :
    Effect opens a s (s.admitJob j) := .of_stir (.pushed hr hj)

/-- The RUN transition is the move to RUN and the admission of its job (R162). -/
theorem State.enterRun_eq (s : State) : s.enterRun = s.running.admitJob (.mode s.generation s.activePorts) := rfl

theorem Effect.checkBarrier (a : Option Port) (s : State) : Effect opens a s s.checkBarrier := by
  obtain h | ⟨hm, -, hr, h⟩ := s.checkBarrier_cases <;> rw [h]
  · exact .refl
  · rw [State.enterRun_eq]
    exact (Effect.of_move (.running hm)).trans (.admitJob hr (.inl rfl))

theorem State.settingsWritten_eq (s : State) :
    s.settingsWritten = if s.votedPorts.isEmpty then s.generationRaised
      else s.generationRaised.admitJob (.votesCleared (s.generation + 1) s.votedPorts) := rfl

theorem Effect.settingsWritten (hm : s.mode = .setup) (hr : s.settingsRoom = true) :
    Effect opens (some p) s s.settingsWritten := by
  rw [State.settingsWritten_eq]
  have raised := Effect.of_move (opens := opens) (Move.generationRaised (p := p) hm)
  by_cases h : s.votedPorts.isEmpty = true
  · rw [if_pos h]; exact raised
  · rw [if_neg h]
    have room : s.hasRoom = true := by simpa [State.settingsRoom, h] using hr
    exact raised.trans (.admitJob room (.inr (.inl rfl)))

/-! ### Requests and records -/

theorem State.removeEntries_eq (s : State) (f : Entry → Bool) :
    ∃ v, s.removeEntries f = s.withEntries v ∧ ∀ i : EntryNo, v[i] = none ∨ v[i] = s.entry i := by
  refine ⟨_, rfl, fun i => ?_⟩
  have h : ((s.removeEntries f).entry i) = (s.entry i).filter fun e => !f e := s.entry_removeEntries f i
  change (s.removeEntries f).entry i = none ∨ (s.removeEntries f).entry i = s.entry i
  rw [h]
  cases s.entry i with
  | none => exact .inl rfl
  | some e => by_cases hf : f e <;> simp [hf, Option.filter]

theorem Move.removeEntries (a : Option Port) (s : State) (f : Entry → Bool) : Move opens a s (s.removeEntries f) := by
  obtain ⟨v, h, hv⟩ := s.removeEntries_eq f
  rw [h]
  exact .entriesLost hv

theorem Move.setEntry_none (a : Option Port) (s : State) (i : EntryNo) : Move opens a s (s.setEntry i none) := by
  refine .entriesLost (v := s.requests.set i none) fun j => ?_
  change (s.setEntry i none).entry j = none ∨ (s.setEntry i none).entry j = s.entry j
  by_cases h : j = i
  · subst h; simp
  · simp [h]

/-- Once the entries that wait on a slot have ended, none waits on it. -/
theorem State.noneWaitsOn_endEntriesOn (s : State) (k : SlotNo) : (s.endEntriesOn k).NoneWaitsOn k := by
  intro i e h
  simp only [State.entry_endEntriesOn, Option.filter_eq_some_iff] at h
  simpa using h.2

/-- A freed slot whose record has no producer, or an ACTIVE one with no update open and no request waiting, and its
WITHDRAW job. -/
theorem Effect.freed {k : SlotNo} {r : Record} {j : Job} (hm : s.mode = .run) (hr : s.hasRoom = true)
    (hk : s.record k = some r)
    (hp : ∀ q, r.producer = some q → (s.port q).state = .active ∧ k ∉ (s.port q).openList ∧ s.NoneWaitsOn k) :
    Effect opens a s ((s.freeSlot k).admitJob j) :=
  (Effect.of_move (.freed hm hk hp)).trans (.admitJob (by simpa [State.hasRoom] using hr) (.inl (by simpa using hm)))

/-- A grant to a requester and a change of a port's unit commute where the change does not touch the fetch state. -/
theorem State.grantTo_updatePort (s : State) (r : Requester) (p : Port) {f : PortUnit → PortUnit}
    (h : ∀ u x, f { u with fetch := x } = { f u with fetch := x }) :
    (s.updatePort p f).grantTo r = (s.grantTo r).updatePort p f := by
  have hf : ∀ u, (f u).fetch = u.fetch := fun u => by simpa using congrArg PortUnit.fetch (h u u.fetch)
  have held : ∀ x : Requester, ({ s.updatePort p f with path := some x, lastGranted := x } : State) =
      State.updatePort { s with path := some x, lastGranted := x } p f := fun x => by cases p <;> rfl
  cases r with
  | du => exact held .du
  | port q =>
    simp only [State.grantTo, held]
    by_cases hq : q = p
    · subst hq
      have hg : ∀ u : PortUnit, f { u with fetch := u.fetch.granted } = { f u with fetch := (f u).fetch.granted } :=
        fun u => by rw [h, hf]
      simp only [State.updatePort_updatePort, hg]
    · exact State.updatePort_comm _ _ _ hq

/-- A grant and such a change commute. -/
theorem State.grant_updatePort (s : State) (p : Port) {f : PortUnit → PortUnit}
    (h : ∀ u x, f { u with fetch := x } = { f u with fetch := x }) :
    (s.updatePort p f).grant = s.grant.updatePort p f := by
  have hf : ∀ u, (f u).fetch = u.fetch := fun u => by simpa using congrArg PortUnit.fetch (h u u.fetch)
  have hw : (s.updatePort p f).waits = s.waits :=
    State.waits_congr (by simp) (by simp) fun q => by
      rw [State.port_updatePort_eq]
      split
      · exact hf _
      · rfl
  cases hp : s.path with
  | some r => rw [State.grant_of_held hp, State.grant_of_held (by simpa using hp)]
  | none =>
    have last : (s.updatePort p f).lastGranted = s.lastGranted := by simp
    rw [State.grant_of_free hp, State.grant_of_free (by simpa using hp), hw, last]
    cases s.lastGranted.orderAfter.find? s.waits with
    | some r => exact State.grantTo_updatePort s r p h
    | none => rfl

/-- A port that settles in OFFLINE does so before or after a grant. -/
theorem State.settleLeaving_admitJob (s : State) (p : Port) (j : Job) :
    (s.admitJob j).settleLeaving p = (s.settleLeaving p).admitJob j := by
  have hs : (s.admitJob j).producedSlots p = s.producedSlots p := by
    simp [State.producedSlots, State.producer]
  unfold State.settleLeaving
  simp only [State.admitJob_portFields, hs]
  split
  · exact (State.grant_updatePort { s with jobs := s.jobs ++ [j] } p fun u x => rfl).symm.trans (by cases p <;> rfl)
  · rfl

end Sys2Proof.Machine
end

section
/-! SUPPORT. The effect of each command, block by block; then of every command, and of a step. -/

namespace Sys2Proof.Machine

variable {opens : Prop} {p : Port} {s t : State} {d : List Byte}

/-- A refusal is no taking. -/
theorem Reply.refuse_ne_take {x : Result} : Reply.refuse x ≠ .take t d := nofun

/-! ### Life cycle and settings -/

/-- The LEAVING entry is its moves, the check of the barrier, and a grant (R156). -/
theorem Effect.leavingEntry (h : s.Joined p) : Effect opens (some p) s (s.leavingEntry p) := by
  have left : Relation.ReflTransGen (Act opens (some p)) s (s.leftBy p) := .single (.stir (.left h))
  exact .granted _ (left.trans (Effect.checkBarrier _ (s.leftBy p)).acts) .refl

theorem Effect.goBody (ha : (s.port p).state = .active) (hm : s.mode = .setup) (h : s.goBody p = .take t d) :
    Effect opens (some p) s t := by
  unfold State.goBody at h
  split at h
  · obtain ⟨rfl, -⟩ := Reply.take.inj h
    exact (Effect.of_move (.voted ha hm)).trans (.checkBarrier _ _)
  · exact absurd h Reply.refuse_ne_take

theorem Effect.setExchangeBody (hm : s.mode = .setup) (h : s.setExchangeBody p = .take t d) :
    Effect opens (some p) s t := by
  unfold State.setExchangeBody at h
  simp only at h
  repeat' split at h
  all_goals try exact absurd h Reply.refuse_ne_take
  rename_i hr
  obtain ⟨rfl, -⟩ := Reply.take.inj h
  exact (Effect.of_move (.exchangeSet hm _ _ _)).trans (.settingsWritten hm (by
    simpa [State.settingsRoom, State.votedPorts, State.hasRoom] using hr))

theorem Effect.setQueueBody (hm : s.mode = .setup) (h : s.setQueueBody p = .take t d) : Effect opens (some p) s t := by
  unfold State.setQueueBody at h
  simp only at h
  repeat' split at h
  all_goals try exact absurd h Reply.refuse_ne_take
  rename_i hd ht hf hr
  obtain ⟨rfl, -⟩ := Reply.take.inj h
  refine (Effect.of_move (.queueSet hm (by simpa using hd) (by omega) (by simpa using hf))).trans (.settingsWritten (by simpa using hm) ?_)
  have votes : ∀ x y, (s.updatePort p fun u => { u with queue := u.queue.resized x y }).votedPorts = s.votedPorts := by
    intro x y
    cases p <;> rfl
  simpa [State.settingsRoom, State.hasRoom, votes] using hr

theorem Effect.setFilterBody (ha : (s.port p).state = .active) (h : s.setFilterBody p = .take t d) :
    Effect opens (some p) s t := by
  unfold State.setFilterBody at h
  simp only at h
  repeat' split at h
  all_goals try exact absurd h Reply.refuse_ne_take
  obtain ⟨rfl, -⟩ := Reply.take.inj h
  exact .of_move (.filtersSet ha _)

theorem Effect.clearFilterBody (ha : (s.port p).state = .active) (h : s.clearFilterBody p = .take t d) :
    Effect opens (some p) s t := by
  unfold State.clearFilterBody at h
  split at h
  · exact absurd h Reply.refuse_ne_take
  · obtain ⟨rfl, -⟩ := Reply.take.inj h
    exact .of_move (.filtersSet ha _)

theorem Effect.setIrqBody (h : s.setIrqBody p = .take t d) : Effect opens (some p) s t := by
  unfold State.setIrqBody at h
  simp only at h
  repeat' split at h
  all_goals try exact absurd h Reply.refuse_ne_take
  rename_i hn
  obtain ⟨rfl, -⟩ := Reply.take.inj h
  refine .of_move (.irqSet ?_)
  simp only
  omega

/-! ### Records -/

theorem Effect.claimBody (ha : (s.port p).state = .active) (hm : s.mode = .run) (h : s.claimBody p = .take t d) :
    Effect opens (some p) s t := by
  unfold State.claimBody State.claimSlot at h
  simp only at h
  repeat' split at h
  all_goals try exact absurd h Reply.refuse_ne_take
  rename_i hargs hkey _ k hk hcells hr _ c rest hfree
  obtain ⟨rfl, -⟩ := Reply.take.inj h
  rw [hfree, List.length_cons] at hcells
  have free := List.find?_some hk
  refine (Effect.of_move (.claimed ha hm (by omega) (by simpa using hkey) (by simpa using free) hfree (by omega))).trans
    (.admitJob ?_ (.inl hm))
  simpa [State.hasRoom, State.claimed] using hr

/-- The checks of a slot and its producer give the record, and that the caller produces it (R5). -/
theorem State.checkProducer_record {x y : Byte} {k : SlotNo} {r : Record} (h : s.checkProducer p x y = .ok (k, r)) :
    s.record k = some r ∧ r.producer = some p := by
  obtain ⟨hslot, hp⟩ := State.checkProducer_ok.mp h
  obtain ⟨-, hk, -⟩ := State.checkSlot_ok.mp hslot
  exact ⟨hk, hp⟩

theorem Effect.withdrawSlot {k : SlotNo} {r : Record} (ha : (s.port p).state = .active) (hm : s.mode = .run)
    (hr : s.hasRoom = true) (hk : s.record k = some r) (hp : r.producer = some p) :
    Effect opens (some p) s ((s.closeUpdate p k).withdrawSlot k r) := by
  have closed := Effect.of_move (opens := opens) (Move.closed ha hm hk hp)
  have ended := Effect.of_move (opens := opens) (Move.removeEntries (some p) (s.closeUpdate p k)
    fun e => e.waitsOn k ((s.closeUpdate p k).slot k).incarnation)
  refine (closed.trans ended).trans (Effect.freed (s := (s.closeUpdate p k).endEntriesOn k) (by simpa using hm)
    (by simpa [State.hasRoom] using hr) (r := r.closed) (by simp [hk]) ?_)
  intro q hq
  have hqp : q = p := by simpa [hp, eq_comm] using hq
  subst hqp
  exact ⟨by simpa [PortUnit.dropOpen] using ha, by simp [PortUnit.dropOpen], State.noneWaitsOn_endEntriesOn _ k⟩

theorem Effect.releaseBody (ha : (s.port p).state = .active) (hm : s.mode = .run) (h : s.releaseBody p = .take t d) :
    Effect opens (some p) s t := by
  unfold State.releaseBody at h
  simp only at h
  repeat' split at h
  all_goals try exact absurd h Reply.refuse_ne_take
  rename_i k r hcheck hr
  obtain ⟨hk, hp⟩ := State.checkProducer_record hcheck
  obtain ⟨rfl, -⟩ := Reply.take.inj h
  exact .withdrawSlot ha hm hr hk hp

/-- The slot found for an ADOPT is an orphan (R23). -/
theorem State.orphanWithKey_some {key : Key} {k : SlotNo} (h : s.orphanWithKey key = some k) :
    ∃ r, s.record k = some r ∧ r.key = key ∧ r.isOrphan = true := by
  have found := List.find?_some h
  cases hk : s.record k with
  | none => simp [hk] at found
  | some r => exact ⟨r, rfl, by simpa [hk] using found⟩

theorem Effect.adoptBody (ha : (s.port p).state = .active) (hm : s.mode = .run) (h : s.adoptBody p = .take t d) :
    Effect opens (some p) s t := by
  unfold State.adoptBody at h
  repeat' split at h
  all_goals try exact absurd h Reply.refuse_ne_take
  rename_i k hkey _ r hk hr
  obtain ⟨rfl, -⟩ := Reply.take.inj h
  obtain ⟨r', hk', -, ho⟩ := State.orphanWithKey_some hkey
  obtain rfl : r' = r := Option.some.inj (hk'.symm.trans hk)
  exact (Effect.of_move (.adopted ha hm hk ho)).trans (.admitJob (by simpa [State.hasRoom] using hr) (.inl hm))

/-! ### Updates and commits -/

theorem Effect.openUpdateBody (ha : (s.port p).state = .active) (hm : s.mode = .run)
    (ho : opens) (h : s.openUpdateBody p = .take t d) : Effect opens (some p) s t := by
  unfold State.openUpdateBody at h
  simp only at h
  repeat' split at h
  all_goals try exact absurd h Reply.refuse_ne_take
  rename_i k r hcheck hopen hl _ c u hc
  obtain ⟨hk, hp⟩ := State.checkProducer_record hcheck
  obtain ⟨rfl, -⟩ := Reply.take.inj h
  have hu : u = none := by simpa [Record.openUpdate, hc] using hopen
  subst hu
  exact .of_move (.opened ha hm hk hp hc (by simpa [Config.openCapacity] using hl) ho)

theorem Effect.selectStageBody (h : s.selectStageBody p = .take t d) : Effect opens (some p) s t := by
  unfold State.selectStageBody at h
  simp only at h
  repeat' split at h
  all_goals try exact absurd h Reply.refuse_ne_take
  rename_i k r hcheck _ x hx
  obtain ⟨hk, hp⟩ := State.checkProducer_record hcheck
  obtain ⟨rfl, -⟩ := Reply.take.inj h
  exact .of_move (.pointed hk hp (by simp [hx]))

theorem Effect.abandonBody (ha : (s.port p).state = .active) (hm : s.mode = .run) (h : s.abandonBody p = .take t d) :
    Effect opens (some p) s t := by
  unfold State.abandonBody at h
  simp only at h
  repeat' split at h
  all_goals try exact absurd h Reply.refuse_ne_take
  rename_i k r hcheck _
  obtain ⟨hk, hp⟩ := State.checkProducer_record hcheck
  obtain ⟨rfl, -⟩ := Reply.take.inj h
  exact .of_move (.closed ha hm hk hp)

/-- The commit of one slot leaves the state of its producer (R39). -/
theorem State.commitSlot_active {now : Time} {tag : Option GroupTag} {k : SlotNo} {m : Published}
    (h : s.commitSlot p now tag k = some (t, m)) : (t.port p).state = (s.port p).state := by
  rw [State.commitSlot_port h, if_pos rfl]
  rfl

theorem Effect.commitBody (ha : (s.port p).state = .active) (hm : s.mode = .run) (h : s.commitBody p = .take t d) :
    Effect opens (some p) s t := by
  unfold State.commitBody at h
  simp only at h
  repeat' split at h
  all_goals try exact absurd h Reply.refuse_ne_take
  rename_i k r hcheck _ _ _ _ hr _ u m hcommit
  obtain ⟨hk, hp⟩ := State.checkProducer_record hcheck
  obtain ⟨rfl, -⟩ := Reply.take.inj h
  obtain ⟨-, -, -, hmode, -, -, -, -, -, -, hjobs, -⟩ := State.commitSlot_fields hcommit
  exact (Effect.of_move (.committed ha hm hk (.inl hp) hcommit)).trans
    (.admitJob (by simpa [State.hasRoom, hjobs] using hr) (.inl (hmode.trans hm)))

/-- The slot has no update open. -/
def State.UpdateClosed (s : State) (k : SlotNo) : Prop := ∀ r, s.record k = some r → r.openUpdate = none

/-- What the rotation of a record's cells can do: a spare becomes the staging cell, or the oldest version leaves the
list and becomes the staging cell, or the owed one where it is pinned (R11). -/
theorem Record.rotated_cases (r : Record) (s : State) (c : CellNo) :
    (∃ x rest, r.versions.length < r.depth ∧ r.spares = x :: rest ∧
        r.rotated s c = { r with versions := r.versions ++ [c], spares := rest, next := .staging x none }) ∨
      (r.depth ≤ r.versions.length ∨ r.spares = []) ∧
        r.rotated s c = { r with
          versions := (r.versions ++ [c]).tail,
          next := rotateOut (s.cell (r.versions.headD c)).pins (r.versions.headD c) } := by
  unfold Record.rotated
  by_cases hl : (r.versions ++ [c]).length ≤ r.depth
  · simp only [if_pos hl]
    rw [List.length_append, List.length_singleton] at hl
    cases hx : r.spares with
    | nil => exact .inr ⟨.inr rfl, by simp⟩
    | cons x rest => exact .inl ⟨x, rest, by omega, rfl, rfl⟩
  · simp only [if_neg hl]
    rw [List.length_append, List.length_singleton] at hl
    exact .inr ⟨.inl (by omega), trivial⟩

/-- The cells of a record rotated leave no update open (R11). -/
theorem Record.openUpdate_rotated (r : Record) (s : State) (c : CellNo) : (r.rotated s c).openUpdate = none := by
  obtain ⟨x, rest, -, -, h⟩ | ⟨-, h⟩ := r.rotated_cases s c <;> rw [h]
  · rfl
  · by_cases hp : (s.cell (r.versions.headD c)).pins = 0 <;> simp only [Record.openUpdate, rotateOut, hp, if_true, if_false]

/-- The commit of one slot closes its update, and opens none. -/
theorem State.updateClosed_commitSlot {now : Time} {tag : Option GroupTag} {k : SlotNo} {m : Published}
    (h : s.commitSlot p now tag k = some (t, m)) {j : SlotNo} (hj : j = k ∨ s.UpdateClosed j) : t.UpdateClosed j := by
  obtain ⟨others, -, -⟩ := State.commitSlot_others h
  obtain ⟨r, c, u, -, -, rfl, -⟩ := State.commitSlot_some.mp h
  intro r' hr'
  by_cases e : j = k
  · subst e
    simp only [State.record_endEntriesOn, State.record_updatePort, State.record_setRecord, Option.some.injEq] at hr'
    subst hr'
    exact r.openUpdate_rotated s c
  · exact hj.resolve_left e r' (by rw [← others j e]; exact hr')

/-- The members of a group committed one after another: each is on the open list while its update is open, and at the
end every one of them is closed (R44). -/
theorem Effect.commitMembers {now : Time} {tag : Option GroupTag} (ks : List SlotNo) (s : State)
    (ha : (s.port p).state = .active) (hm : s.mode = .run)
    (hl : ∀ k ∈ ks, k ∈ (s.port p).openList ∨ s.UpdateClosed k)
    (hc : ∀ k, k ∈ (s.port p).openList → k ∈ ks ∨ s.UpdateClosed k) :
    Relation.ReflTransGen (Move opens (some p)) s (State.commitMembers p now tag ks s).1 ∧
      ∀ k ∈ ((State.commitMembers p now tag ks s).1.port p).openList,
        (State.commitMembers p now tag ks s).1.UpdateClosed k := by
  induction ks generalizing s with
  | nil => exact ⟨.refl, fun k hk => (hc k hk).resolve_left (by simp)⟩
  | cons k ks ih =>
    cases h : s.commitSlot p now tag k with
    | none =>
      have hk : s.UpdateClosed k := State.commitSlot_none.mp h
      simp only [State.commitMembers, h]
      exact ih s ha hm (fun j hj => hl j (List.mem_cons_of_mem _ hj)) fun j hj => by
        rcases hc j hj with hj | hj
        · rcases List.mem_cons.mp hj with rfl | hj
          · exact .inr hk
          · exact .inl hj
        · exact .inr hj
    | some x =>
      obtain ⟨t, m⟩ := x
      obtain ⟨r, c, u, hk, hn, -, -⟩ := State.commitSlot_some.mp h
      have hopen : ¬ s.UpdateClosed k := fun hk' => by simpa [Record.openUpdate, hn] using hk' r hk
      have hmem := (hl k (List.mem_cons_self ..)).resolve_right hopen
      have hlist : (t.port p).openList = (s.port p).openList.filter fun x => x != k := by
        rw [State.commitSlot_port h, if_pos rfl]
        rfl
      obtain ⟨-, -, -, hmode, -⟩ := State.commitSlot_fields h
      obtain ⟨moves, closed⟩ := ih t ((State.commitSlot_active h).trans ha) (hmode.trans hm)
        (fun j hj => by
          by_cases e : j = k
          · exact .inr (State.updateClosed_commitSlot h (.inl e))
          · rcases hl j (List.mem_cons_of_mem _ hj) with hj | hj
            · exact .inl (by rw [hlist]; simpa [e] using hj)
            · exact .inr (State.updateClosed_commitSlot h (.inr hj)))
        (fun j hj => by
          rw [hlist, List.mem_filter] at hj
          rcases hc j hj.1 with hj' | hj'
          · exact .inl ((List.mem_cons.mp hj').resolve_left (by simpa using hj.2))
          · exact .inr (State.updateClosed_commitSlot h (.inr hj')))
      rw [State.commitMembers_cons ks h]
      exact ⟨(Relation.ReflTransGen.single (.committed ha hm hk (.inr hmem) h)).trans moves, closed⟩

theorem Effect.commitGroupBody (ha : (s.port p).state = .active) (hm : s.mode = .run)
    (h : s.commitGroupBody p = .take t d) : Effect opens (some p) s t := by
  unfold State.commitGroupBody at h
  simp only at h
  repeat' split at h
  all_goals try exact absurd h Reply.refuse_ne_take
  rename_i hr
  obtain ⟨rfl, -⟩ := Reply.take.inj h
  obtain ⟨moves, closed⟩ := Effect.commitMembers (p := p) (now := s.etc)
    (tag := some { port := p, count := (s.port p).groupCounter + 1 }) _ s ha hm (fun k => .inl) fun k => .inl
  refine ((Effect.calm moves).trans (.of_move (.grouped closed _))).trans (.admitJob ?_ (.inl ?_))
  · simpa [State.hasRoom, State.commitMembers_fields] using hr
  · simpa [State.commitMembers_fields] using hm

/-! ### Watches, fetches and requests -/

theorem Effect.setWatchBody (hm : s.mode = .run) (h : s.setWatchBody p = .take t d) : Effect opens (some p) s t := by
  unfold State.setWatchBody State.putWatch at h
  simp only at h
  repeat' split at h
  all_goals try exact absurd h Reply.refuse_ne_take
  rename_i k r hcheck
  obtain ⟨rfl, -⟩ := Reply.take.inj h
  exact .of_move (.watched hm (State.checkProducer_record hcheck).1 _)

theorem Effect.clearWatchBody (hm : s.mode = .run) (h : s.clearWatchBody p = .take t d) : Effect opens (some p) s t := by
  unfold State.clearWatchBody State.putWatch at h
  simp only at h
  repeat' split at h
  all_goals try exact absurd h Reply.refuse_ne_take
  rename_i k r hcheck
  obtain ⟨rfl, -⟩ := Reply.take.inj h
  exact .of_move (.watched hm (State.checkProducer_record hcheck).1 _)

/-- A version chosen for a fetch is in the list (R92). -/
theorem State.chooseVersion_mem {x : Select} {low : Half} {vs : List CellNo} {c : CellNo}
    (h : s.chooseVersion x low vs = some c) : c ∈ vs := by
  cases x with
  | latest => exact List.mem_of_getLast? h
  | oldest => exact List.mem_of_head? h
  | seq => exact List.mem_of_find?_eq_some h

theorem Effect.fetchBody (ha : (s.port p).state = .active) (hm : s.mode = .run) (h : s.fetchBody p = .take t d) :
    Effect opens (some p) s t := by
  unfold State.fetchBody at h
  simp only at h
  repeat' split at h
  all_goals try exact absurd h Reply.refuse_ne_take
  rename_i k r hcheck hf _ c hc
  obtain ⟨-, hk, -⟩ := State.checkSlot_ok.mp hcheck
  obtain ⟨rfl, -⟩ := Reply.take.inj h
  exact .of_stir (.fetched ha hm hk (State.chooseVersion_mem hc) (by simpa using hf))

theorem Effect.makeEntry {k : SlotNo} {r : Record} {q : Port} (ha : (s.port p).state = .active) (hm : s.mode = .run)
    (hk : s.record k = some r) (hq : r.producer = some q) (hqp : q ≠ p) (hmine : s.hasEntry p k = false)
    (h : s.makeEntry p k r q = .take t d) : Effect opens (some p) s t := by
  unfold State.makeEntry at h
  split at h
  · exact absurd h Reply.refuse_ne_take
  · rename_i i hi
    have empty : s.entry i = none := by simpa using List.find?_some hi
    split at h
    · exact absurd h Reply.refuse_ne_take
    · rename_i hcount
      have entered : ∀ e : Entry, e.requester = p ∧ e.slot = k ∧ e.incarnation = (s.slot k).incarnation →
          Effect opens (some p) s (s.setEntry i (some e)) := fun e he =>
        .of_move (.entered ha hm hk hq hqp hmine empty (by simpa [Config.requestCapacityPerPort] using hcount) he)
      simp only at h
      repeat' split at h
      all_goals try exact absurd h Reply.refuse_ne_take
      · rename_i hr
        obtain ⟨rfl, -⟩ := Reply.take.inj h
        exact (entered _ ⟨rfl, rfl, rfl⟩).trans (.admitJob (by simpa [State.hasRoom] using hr) (.inl (by simpa using hm)))
      · obtain ⟨rfl, -⟩ := Reply.take.inj h
        exact entered _ ⟨rfl, rfl, rfl⟩

theorem Effect.requestBody (ha : (s.port p).state = .active) (hm : s.mode = .run) (h : s.requestBody p = .take t d) :
    Effect opens (some p) s t := by
  unfold State.requestBody at h
  simp only at h
  split at h
  · exact absurd h Reply.refuse_ne_take
  · rename_i k r hcheck
    obtain ⟨-, hk, -⟩ := State.checkSlot_ok.mp hcheck
    split at h
    · exact absurd h Reply.refuse_ne_take
    · rename_i stage q deadline hlife
      have hq : r.producer = some q := by simp [Record.producer, hlife]
      split at h
      · exact absurd h Reply.refuse_ne_take
      · split at h
        · exact absurd h Reply.refuse_ne_take
        · rename_i hqp hmine
          have enters : s.makeEntry p k r q = .take t d → Effect opens (some p) s t :=
            Effect.makeEntry ha hm hk hq hqp (by simpa using hmine)
          unfold State.requestCourse State.answerNow at h
          simp only at h
          repeat' split at h
          all_goals try exact absurd h Reply.refuse_ne_take
          · exact enters h
          · rename_i hr
            obtain ⟨rfl, -⟩ := Reply.take.inj h
            exact .admitJob hr (.inl hm)
          · exact enters h

theorem Effect.cancelRequestBody (h : s.cancelRequestBody p = .take t d) : Effect opens (some p) s t := by
  unfold State.cancelRequestBody at h
  simp only at h
  repeat' split at h
  all_goals try exact absurd h Reply.refuse_ne_take
  obtain ⟨rfl, -⟩ := Reply.take.inj h
  exact .of_move (.removeEntries _ s _)

/-! ### The part's own events -/

theorem Effect.tickNow (s : State) : Effect opens none s s.tickNow := by
  unfold State.tickNow
  split
  · exact .refl
  · rename_i hm
    exact .of_move (.ticked hm)

theorem Effect.clkinCycle (s : State) : Effect opens none s s.clkinCycle := by
  unfold State.clkinCycle
  split
  · exact .refl
  · rename_i hm
    split
    · rename_i h
      exact .of_move (.counted hm h)
    · exact .tickNow s

theorem Effect.checkDeadline {k : SlotNo} {r : Record} {x : Stage} {q : Port} {o : Option Time} (hm : s.mode = .run)
    (hk : s.record k = some r) (hr : r.life = .produced x q o) (hx : x ≠ .stale) :
    Effect opens none s (s.checkDeadline k r q o) := by
  unfold State.checkDeadline
  split
  · exact .refl
  · split
    · rename_i h
      exact (Effect.of_move (.lapsed hm hk hr hx)).trans (.admitJob (by simpa [State.hasRoom] using h.2.2) (.inl hm))
    · exact .refl

theorem Effect.visitSlot (hm : s.mode = .run) (k : SlotNo) : Effect opens none s (s.visitSlot k) := by
  unfold State.visitSlot
  cases hk : s.record k with
  | none => exact .refl
  | some r =>
    simp only
    split
    · rename_i hr
      exact .checkDeadline hm hk hr (by simp)
    · rename_i hr
      exact .checkDeadline hm hk hr (by simp)
    · exact .refl
    · rename_i since hr
      split
      · rename_i h
        exact .freed hm h.2.2 hk (by simp [Record.producer, hr])
      · exact .refl

theorem Effect.visitEntry (hm : s.mode = .run) (i : EntryNo) : Effect opens none s (s.visitEntry i) := by
  unfold State.visitEntry State.timeOut
  repeat' split
  all_goals try exact .refl
  rename_i h
  exact (Effect.of_move (.setEntry_none none s i)).trans
    (.admitJob (by simpa [State.hasRoom] using h.2) (.inl (by simpa using hm)))

/-- A visit of the scan, and the move to the next position, in RUN (R109). -/
theorem Effect.scanOn (h : Effect opens none s t) (hm : t.mode = .run) : Effect opens none s t.scanOn :=
  h.trans (.of_move (.scanned hm _))

theorem State.mode_visitSlot (s : State) (k : SlotNo) : (s.visitSlot k).mode = s.mode := by
  unfold State.visitSlot State.checkDeadline State.lapse
  repeat' split
  all_goals simp

theorem State.mode_visitEntry (s : State) (i : EntryNo) : (s.visitEntry i).mode = s.mode := by
  unfold State.visitEntry State.timeOut
  repeat' split
  all_goals simp

theorem Effect.orphaning {k : SlotNo} {r : Record} (ha : (s.port p).state = .leaving) (hr : s.hasRoom = true)
    (hk : s.record k = some r) (hp : r.producer = some p) : Effect opens none s ((s.orphanSlot k r).settleLeaving p) := by
  unfold State.orphanSlot
  simp only [State.settleLeaving_admitJob]
  have ended := Effect.of_move (opens := opens) (Move.removeEntries none s fun e => e.waitsOn k (s.slot k).incarnation)
  have orphaned := Move.orphaned (opens := opens) (s := s.endEntriesOn k) (p := p) (k := k) (r := r)
    (by simpa using ha) (by simpa using hk)
    hp (State.noneWaitsOn_endEntriesOn s k)
  refine (ended.trans (.of_move orphaned)).trans ?_
  exact .admitJob (by simpa [State.hasRoom, State.orphaned] using hr) (.inr (.inr ⟨k, by simp [State.orphaned]⟩))

theorem Effect.execOrphaning (h : execOrphaning p s = .next t) : Effect opens none s t := by
  unfold Sys2Proof.Machine.execOrphaning at h
  obtain rfl := Host.Outcome.next.inj h
  split
  · rename_i ha
    cases hl : s.producedSlots p with
    | nil => exact .refl
    | cons k ks =>
      have hk : s.producer k = some p := by
        have : k ∈ s.producedSlots p := by simp [hl]
        simpa [State.producedSlots] using this
      unfold State.producer at hk
      cases hr : s.record k with
      | none => simp [hr] at hk
      | some r =>
        simp only [hr]
        exact .orphaning ha.1 ha.2 hr (by simpa [hr] using hk)
  · exact .refl

theorem Effect.execScanVisitSlot (h : execScanVisitSlot s = .next t) : Effect opens none s t := by
  unfold Sys2Proof.Machine.execScanVisitSlot at h
  obtain rfl := Host.Outcome.next.inj h
  split
  · rename_i k hm _
    exact .scanOn (.visitSlot hm k) ((s.mode_visitSlot k).trans hm)
  · exact .refl
  · exact .refl

theorem Effect.execScanVisitEntry (h : execScanVisitEntry s = .next t) : Effect opens none s t := by
  unfold Sys2Proof.Machine.execScanVisitEntry at h
  obtain rfl := Host.Outcome.next.inj h
  split
  · rename_i i hm _
    exact .scanOn (.visitEntry hm i) ((s.mode_visitEntry i).trans hm)
  · exact .refl
  · exact .refl

theorem Effect.execDistributionEvent (h : execDistributionEvent s = .next t) : Effect opens none s t := by
  unfold Sys2Proof.Machine.execDistributionEvent at h
  obtain rfl := Host.Outcome.next.inj h
  split
  · rename_i j rest hp hj
    have handed := Act.stir (opens := opens) (Stir.distributed hp hj)
    exact .granted _ ((Relation.ReflTransGen.single handed).trans (Effect.checkBarrier _ _).acts) .refl
  all_goals exact .refl

theorem Effect.execCopyCompletion (h : execCopyCompletion s = .next t) : Effect opens none s t := by
  unfold Sys2Proof.Machine.execCopyCompletion at h
  obtain rfl := Host.Outcome.next.inj h
  split
  · rename_i p hp
    split
    · rename_i c hf
      exact .of_stir (.copied hp hf)
    all_goals exact .refl
  all_goals exact .refl

theorem Effect.execPrstxAssert (h : execPrstxAssert p s = .next t) : Effect opens (some p) s t := by
  unfold Sys2Proof.Machine.execPrstxAssert at h
  obtain rfl := Host.Outcome.next.inj h
  split
  · exact .refl
  · have asserted := Effect.of_move (opens := opens) (Move.updated (s := s) (p := p) (f := PortUnit.prstAsserted) (.of_eq rfl))
    have leaves : s.Joined p → Effect opens (some p) s ((s.updatePort p PortUnit.prstAsserted).leavingEntry p) := fun hj =>
      asserted.trans (.leavingEntry (by simpa [State.Joined, PortUnit.prstAsserted] using hj))
    simp only
    split
    · rename_i ha
      exact leaves (.inl ha)
    · rename_i hd
      exact leaves (.inr hd)
    · exact asserted
    · exact asserted

/-! ### Every command -/

/-- The command may open an update: OPEN_UPDATE alone (R30). -/
def opensUpdate : Instr → Bool
  | .openUpdate _ _ => true
  | _ => false

/-- A byte of port `p` has an effect of port `p`. -/
theorem exec_byte_effect {i : Instr} (hi : i.byteOf = some p) (ho : opensUpdate i = true → opens)
    (h : exec i s = .next t) : Effect opens (some p) s t := by
  cases i <;> simp only [Instr.byteOf, reduceCtorEq, Option.some.injEq] at hi <;> subst hi <;>
    obtain rfl := Host.Outcome.next.inj h
  case addressByte b =>
    split
    · split
      · exact .startByte s _ _
      · exact .of_move (.updated (.of_eq rfl))
    · exact .refl
  case argWrite => exact .writeByteOf fun x => .of_move (.updated (.of_eq rfl))
  case windowWriteIgnored => exact .writeByteOf fun x => .refl
  case stageData v => exact .writeByteOf fun x => .stageByte s _ v
  case join =>
    refine .issue fun t d hc ht => ?_
    obtain ⟨rfl, -⟩ := Reply.take.inj ht
    exact .of_move (.joined (Command.offline_of_join hc))
  case leave =>
    refine .issue_active (by simp) fun s t d ha ht _ => ?_
    obtain ⟨rfl, -⟩ := Reply.take.inj ht
    exact .leavingEntry (.inl ha)
  case doze =>
    refine .issue_run (.inr rfl) fun s t d ha hm ht => ?_
    obtain ⟨rfl, -⟩ := Reply.take.inj ht
    exact .of_move (.dozed ha hm)
  case go => exact .issue_setup rfl fun s t d ha hm ht => .goBody ha hm ht
  case setExchange => exact .issue_setup rfl fun s t d _ hm ht => .setExchangeBody hm ht
  case setQueue => exact .issue_setup rfl fun s t d _ hm ht => .setQueueBody hm ht
  case setFilter => exact .issue_active (by simp) fun s t d ha ht _ => .setFilterBody ha ht
  case clearFilter => exact .issue_active (by simp) fun s t d ha ht _ => .clearFilterBody ha ht
  case setIrq => exact .issue_active (by simp) fun s t d _ ht _ => .setIrqBody ht
  case claim => exact .issue_run (.inl rfl) fun s t d ha hm ht => .claimBody ha hm ht
  case release => exact .issue_run (.inl rfl) fun s t d ha hm ht => .releaseBody ha hm ht
  case adopt => exact .issue_run (.inl rfl) fun s t d ha hm ht => .adoptBody ha hm ht
  case lookup =>
    refine .issue_run (.inl rfl) fun s t d ha hm ht => ?_
    obtain ⟨rfl, -⟩ := Reply.take.inj ht
    exact .refl
  case openUpdate => exact .issue_run (.inl rfl) fun s t d ha hm ht => .openUpdateBody ha hm (ho rfl) ht
  case selectStage => exact .issue_run (.inl rfl) fun s t d _ _ ht => .selectStageBody ht
  case abandon => exact .issue_run (.inl rfl) fun s t d ha hm ht => .abandonBody ha hm ht
  case commit => exact .issue_run (.inl rfl) fun s t d ha hm ht => .commitBody ha hm ht
  case commitGroup => exact .issue_run (.inl rfl) fun s t d ha hm ht => .commitGroupBody ha hm ht
  case setWatch => exact .issue_run (.inl rfl) fun s t d _ hm ht => .setWatchBody hm ht
  case clearWatch => exact .issue_run (.inl rfl) fun s t d _ hm ht => .clearWatchBody hm ht
  case fetch => exact .issue_run (.inl rfl) fun s t d ha hm ht => .fetchBody ha hm ht
  case request => exact .issue_run (.inl rfl) fun s t d ha hm ht => .requestBody ha hm ht
  case cancelRequest => exact .issue_run (.inl rfl) fun s t d _ _ ht => .cancelRequestBody ht
  all_goals exact .readByteOf s _ _

/-- Every command but a reset of the part has the effect of its moves. -/
theorem exec_effect {i : Instr} (hi : i.resetsPart = false) (ho : opensUpdate i = true → opens)
    (h : exec i s = .next t) : ∃ a, Effect opens a s t := by
  cases hb : i.byteOf with
  | some p => exact ⟨some p, exec_byte_effect hb ho h⟩
  | none =>
    cases i <;> simp only [Instr.byteOf, Instr.resetsPart, reduceCtorEq, Bool.true_eq_false] at hb hi
    case prstxAssert p => exact ⟨_, .execPrstxAssert h⟩
    case orphaning p => exact ⟨_, .execOrphaning h⟩
    case scanVisitSlot => exact ⟨_, .execScanVisitSlot h⟩
    case scanVisitEntry => exact ⟨_, .execScanVisitEntry h⟩
    case distributionEvent => exact ⟨_, .execDistributionEvent h⟩
    case copyCompletion => exact ⟨_, .execCopyCompletion h⟩
    all_goals obtain rfl := Host.Outcome.next.inj h
    case resetRelease => exact ⟨none, .of_move (.pins false s.ready)⟩
    case portsReady =>
      refine ⟨none, ?_⟩
      split
      · exact .refl
      · exact .of_move (.pins s.resetPin true)
    case prstxRelease p => exact ⟨some p, .of_move (.updated (.of_eq rfl))⟩
    case chipSelectAssert p =>
      refine ⟨some p, ?_⟩
      split
      · exact .of_move (.updated (.of_eq rfl))
      · exact .refl
    case chipSelectDeassert p => exact ⟨some p, .of_move (.updated (.of_eq rfl))⟩
    case runTransition => exact ⟨none, .checkBarrier none s⟩
    case tick => exact ⟨none, .tickNow s⟩

/-- The reset of the whole part, with the RESET pin at a level (R165). -/
def State.resetWith (s : State) (b : Bool) : State := { s.resetPart with resetPin := b }

theorem State.resetPart_eq (s : State) : ∃ b, s.resetPart = s.resetWith b := by
  unfold State.resetWith
  generalize s.resetPart = x
  exact ⟨x.resetPin, rfl⟩

/-- A command that resets the part leaves its reset state, the RESET pin as it then stands. -/
theorem exec_reset {i : Instr} (hi : i.resetsPart = true) (h : exec i s = .next t) : t = s ∨ ∃ b, t = s.resetWith b := by
  cases i <;> simp only [Instr.resetsPart, Bool.false_eq_true] at hi <;> obtain rfl := Host.Outcome.next.inj h
  case powerOn => exact .inr s.resetPart_eq
  case resetAssert =>
    split
    · exact .inl rfl
    · exact .inr ⟨true, rfl⟩

/-- Everything a step can do: with the front command taken from the queue, the effect of some moves, or a reset. -/
theorem step_cases (h : step s = .next t) :
    ∃ l, (∃ a, Effect True a { s with pending := l } t) ∨ ∃ b, t = State.resetWith { s with pending := l } b := by
  unfold step at h
  split at h
  · obtain rfl := Host.Outcome.next.inj h
    exact ⟨s.pending, .inl ⟨none, .clkinCycle s⟩⟩
  · rename_i i rest _
    refine ⟨rest, ?_⟩
    generalize ({ s with pending := rest } : State) = s' at h
    cases hi : i.resetsPart with
    | false => exact .inl (exec_effect hi (fun _ => trivial) h)
    | true =>
      obtain rfl | h := exec_reset hi h
      · exact .inl ⟨none, .refl⟩
      · exact .inr h

/-- The induction over moves, packaged: what every act keeps, and a reset gives, every step keeps. -/
theorem step_keeps {L : State → Prop} (pending : ∀ s l, L s → L { s with pending := l })
    (reset : ∀ s b, L (State.resetWith s b)) (move : ∀ a s t, Move True a s t → L s → L t)
    (stir : ∀ a s t, Stir a s t → L s → L t) (grant : ∀ s, L s → L s.grant) (hs : L s) (h : step s = .next t) : L t := by
  obtain ⟨l, ⟨a, h⟩ | ⟨b, rfl⟩⟩ := step_cases h
  · exact h.keeps (move a) (stir a) grant (pending s l hs)
  · exact reset _ b

end Sys2Proof.Machine
end

section
/-! SUPPORT. What each move leaves of the cells, the slots and the pool: most leave them all, and the rest are a record
rewritten on the same cells, a CLAIM, a freed slot, or a commit. -/

namespace Sys2Proof.Machine

variable {opens : Prop} {a : Option Port} {p : Port} {s t : State}

/-! ### The parts that the named changes leave -/

@[simp] theorem State.votesCleared_fields (s : State) :
    s.votesCleared.mode = s.mode ∧ s.votesCleared.slots = s.slots ∧ s.votesCleared.cells = s.cells ∧
      s.votesCleared.free = s.free ∧ s.votesCleared.detached = s.detached ∧ s.votesCleared.jobs = s.jobs ∧
      s.votesCleared.path = s.path ∧ s.votesCleared.requests = s.requests ∧ s.votesCleared.etc = s.etc ∧
      s.votesCleared.prescaler = s.prescaler ∧ s.votesCleared.scan = s.scan ∧
      s.votesCleared.tickPeriod = s.tickPeriod ∧ s.votesCleared.answerTimeout = s.answerTimeout ∧
      s.votesCleared.orphanHold = s.orphanHold ∧ s.votesCleared.generation = s.generation ∧
      s.votesCleared.pending = s.pending ∧ s.votesCleared.lastGranted = s.lastGranted := by
  simp [State.votesCleared]

@[simp] theorem State.running_fields (s : State) :
    s.running.slots = s.slots ∧ s.running.cells = s.cells ∧ s.running.free = s.free ∧
      s.running.detached = s.detached ∧ s.running.jobs = s.jobs ∧ s.running.path = s.path ∧
      s.running.requests = s.requests ∧ s.running.mode = .run ∧ s.running.etc = 0 ∧ s.running.prescaler = 0 ∧
      s.running.scan = 0 ∧ s.running.tickPeriod = s.tickPeriod ∧ s.running.pending = s.pending := by
  simp [State.running]

@[simp] theorem State.port_running (s : State) (q : Port) : s.running.port q = { s.port q with vote := false } := by
  simp [State.running, State.votesCleared]

@[simp] theorem State.generationRaised_fields (s : State) :
    s.generationRaised.slots = s.slots ∧ s.generationRaised.cells = s.cells ∧ s.generationRaised.free = s.free ∧
      s.generationRaised.detached = s.detached ∧ s.generationRaised.jobs = s.jobs ∧
      s.generationRaised.path = s.path ∧ s.generationRaised.requests = s.requests ∧
      s.generationRaised.mode = s.mode ∧ s.generationRaised.etc = s.etc ∧
      s.generationRaised.prescaler = s.prescaler ∧ s.generationRaised.scan = s.scan ∧
      s.generationRaised.tickPeriod = s.tickPeriod ∧ s.generationRaised.pending = s.pending := by
  simp [State.generationRaised]

@[simp] theorem State.port_generationRaised (s : State) (q : Port) :
    s.generationRaised.port q = { s.port q with vote := false } := by
  simp [State.generationRaised, State.votesCleared]

@[simp] theorem State.withEntries_fields (s : State) (v : Vector (Option Entry) 16) :
    (s.withEntries v).slots = s.slots ∧ (s.withEntries v).cells = s.cells ∧ (s.withEntries v).free = s.free ∧
      (s.withEntries v).detached = s.detached ∧ (s.withEntries v).jobs = s.jobs ∧
      (s.withEntries v).path = s.path ∧ (s.withEntries v).mode = s.mode ∧ (s.withEntries v).etc = s.etc ∧
      (s.withEntries v).prescaler = s.prescaler ∧ (s.withEntries v).scan = s.scan ∧
      (s.withEntries v).tickPeriod = s.tickPeriod ∧ (s.withEntries v).pending = s.pending ∧
      (s.withEntries v).answerTimeout = s.answerTimeout ∧ (s.withEntries v).orphanHold = s.orphanHold ∧
      (s.withEntries v).generation = s.generation :=
  ⟨rfl, rfl, rfl, rfl, rfl, rfl, rfl, rfl, rfl, rfl, rfl, rfl, rfl, rfl, rfl⟩

@[simp] theorem State.port_withEntries (s : State) (v : Vector (Option Entry) 16) (q : Port) :
    (s.withEntries v).port q = s.port q := by
  cases q <;> rfl

@[simp] theorem State.entry_withEntries (s : State) (v : Vector (Option Entry) 16) (i : EntryNo) :
    (s.withEntries v).entry i = v[i] := rfl

@[simp] theorem State.claimed_fields (s : State) (p : Port) (k : SlotNo) (key : Key) (depth : Nat) (period : Time)
    (auto : Bool) (c : CellNo) (rest : List CellNo) :
    (s.claimed p k key depth period auto c rest).cells = s.cells ∧
      (s.claimed p k key depth period auto c rest).free = rest.drop depth ∧
      (s.claimed p k key depth period auto c rest).detached = s.detached ∧
      (s.claimed p k key depth period auto c rest).jobs = s.jobs ∧
      (s.claimed p k key depth period auto c rest).path = s.path ∧
      (s.claimed p k key depth period auto c rest).requests = s.requests ∧
      (s.claimed p k key depth period auto c rest).mode = s.mode ∧
      (s.claimed p k key depth period auto c rest).etc = s.etc ∧
      (s.claimed p k key depth period auto c rest).prescaler = s.prescaler ∧
      (s.claimed p k key depth period auto c rest).scan = s.scan ∧
      (s.claimed p k key depth period auto c rest).tickPeriod = s.tickPeriod ∧
      (s.claimed p k key depth period auto c rest).pending = s.pending ∧
      (s.claimed p k key depth period auto c rest).answerTimeout = s.answerTimeout ∧
      (s.claimed p k key depth period auto c rest).orphanHold = s.orphanHold ∧
      (s.claimed p k key depth period auto c rest).generation = s.generation := by
  simp [State.claimed]

@[simp] theorem State.port_claimed (s : State) (p : Port) (k : SlotNo) (key : Key) (depth : Nat) (period : Time)
    (auto : Bool) (c : CellNo) (rest : List CellNo) (q : Port) :
    (s.claimed p k key depth period auto c rest).port q = s.port q := by
  simp [State.claimed]

/-- The claimed slot holds the new record, and every other slot is as it was (R16). -/
@[simp] theorem State.slot_claimed (s : State) (p : Port) (k : SlotNo) (key : Key) (depth : Nat) (period : Time)
    (auto : Bool) (c : CellNo) (rest : List CellNo) (j : SlotNo) :
    (s.claimed p k key depth period auto c rest).slot j =
      if j = k then
        { incarnation := (s.slot k).incarnation + 1,
          record := some (claimedRecord p key depth period auto s.etc c (rest.take depth)) }
      else s.slot j := by
  by_cases h : j = k
  · subst h; simp [State.claimed]
  · simp [State.claimed, h]

theorem State.record_claimed (s : State) (p : Port) (k : SlotNo) (key : Key) (depth : Nat) (period : Time)
    (auto : Bool) (c : CellNo) (rest : List CellNo) (j : SlotNo) :
    (s.claimed p k key depth period auto c rest).record j =
      if j = k then some (claimedRecord p key depth period auto s.etc c (rest.take depth)) else s.record j := by
  unfold State.record
  rw [State.slot_claimed]
  split <;> rfl

/-- The cells of a claimed record are the first of the pool (R16). -/
theorem cells_claimedRecord (p : Port) (key : Key) (depth : Nat) (period : Time) (auto : Bool) (now : Time) (c : CellNo)
    (xs : List CellNo) : (claimedRecord p key depth period auto now c xs).cells = xs ++ [c] := rfl

@[simp] theorem State.orphaned_fields (s : State) (p : Port) (k : SlotNo) (r : Record) :
    (s.orphaned p k r).cells = s.cells ∧ (s.orphaned p k r).free = s.free ∧
      (s.orphaned p k r).detached = s.detached ∧ (s.orphaned p k r).jobs = s.jobs ∧
      (s.orphaned p k r).path = s.path ∧ (s.orphaned p k r).requests = s.requests ∧
      (s.orphaned p k r).mode = s.mode ∧ (s.orphaned p k r).etc = s.etc ∧
      (s.orphaned p k r).prescaler = s.prescaler ∧ (s.orphaned p k r).scan = s.scan ∧
      (s.orphaned p k r).tickPeriod = s.tickPeriod ∧ (s.orphaned p k r).pending = s.pending ∧
      (s.orphaned p k r).answerTimeout = s.answerTimeout ∧ (s.orphaned p k r).orphanHold = s.orphanHold ∧
      (s.orphaned p k r).generation = s.generation ∧
      (s.orphaned p k r).slots = (s.setRecord k (some { r with life := .orphaned s.etc })).slots := by
  simp [State.orphaned]

/-- What the LEAVING entry does to the port before its fetch is cancelled (R156). -/
def State.leftUnit (s : State) (p : Port) : State :=
  (((s.port p).openList.foldl State.closeOnSlot s).removeEntries fun e => e.requester == p).updatePort p PortUnit.left

theorem State.leftBy_eq (s : State) (p : Port) :
    s.leftBy p = ((s.leftUnit p).cancelFetch (s.port p).fetch).settleLeaving p := rfl

@[simp] theorem State.leftUnit_fields (s : State) (p : Port) :
    (s.leftUnit p).cells = s.cells ∧ (s.leftUnit p).free = s.free ∧ (s.leftUnit p).detached = s.detached ∧
      (s.leftUnit p).jobs = s.jobs ∧ (s.leftUnit p).path = s.path ∧ (s.leftUnit p).mode = s.mode ∧
      (s.leftUnit p).etc = s.etc ∧ (s.leftUnit p).prescaler = s.prescaler ∧ (s.leftUnit p).scan = s.scan ∧
      (s.leftUnit p).tickPeriod = s.tickPeriod ∧ (s.leftUnit p).pending = s.pending ∧
      (s.leftUnit p).answerTimeout = s.answerTimeout ∧ (s.leftUnit p).orphanHold = s.orphanHold ∧
      (s.leftUnit p).generation = s.generation := by
  simp [State.leftUnit]

@[simp] theorem State.cell_leftUnit (s : State) (p : Port) (c : CellNo) : (s.leftUnit p).cell c = s.cell c := by
  simp [State.cell]

@[simp] theorem State.record_leftUnit (s : State) (p : Port) (k : SlotNo) :
    (s.leftUnit p).record k = if k ∈ (s.port p).openList then (s.record k).map Record.closed else s.record k := by
  simp [State.leftUnit]

@[simp] theorem State.incarnation_leftUnit (s : State) (p : Port) (k : SlotNo) :
    ((s.leftUnit p).slot k).incarnation = (s.slot k).incarnation := by
  simp [State.leftUnit]

@[simp] theorem State.entry_leftUnit (s : State) (p : Port) (i : EntryNo) :
    (s.leftUnit p).entry i = (s.entry i).filter fun e => !(e.requester == p) := by
  simp [State.leftUnit]

theorem State.port_leftUnit (s : State) (p q : Port) :
    (s.leftUnit p).port q = if q = p then (s.port q).left else s.port q := by
  simp [State.leftUnit, State.port_updatePort_eq]

/-! ### What a move can do to the cells and slots -/

/-- A record rewritten on its cells: its key, cells and sequence stay, and the states of R6 stay lawful. -/
structure Record.Rewritten (r r' : Record) : Prop where
  key : r'.key = r.key
  depth : r'.depth = r.depth
  versions : r'.versions = r.versions
  spares : r'.spares = r.spares
  lastSequence : r'.lastSequence = r.lastSequence
  cell : r'.next.cell = r.next.cell
  owed : ∀ c, r'.next = .owed c ↔ r.next = .owed c
  stateLaw : r.stateLaw → r'.stateLaw

/-- A record with its staging cell's update replaced is rewritten. -/
theorem Record.Rewritten.update {r : Record} {c : CellNo} {u : Option Update} (h : r.next = .staging c u)
    (v : Option Update) : r.Rewritten { r with next := .staging c v } :=
  ⟨rfl, rfl, rfl, rfl, rfl, by simp [h, NextCell.cell], by simp [h], id⟩

theorem Record.Rewritten.closed (r : Record) : r.Rewritten r.closed where
  key := by simp
  depth := by simp
  versions := by simp
  spares := by simp
  lastSequence := by simp
  cell := by simp
  owed c := by cases h : r.next <;> simp [Record.closed, h]
  stateLaw h := by simpa [Record.stateLaw] using h

theorem deadlineOf_eq_none_iff {period t : Time} : deadlineOf period t = none ↔ period = 0 := by
  unfold deadlineOf
  split <;> simp_all

theorem Record.Rewritten.adopted (r : Record) (p : Port) (now : Time) : r.Rewritten (r.adopted p now) where
  key := rfl
  depth := rfl
  versions := rfl
  spares := rfl
  lastSequence := rfl
  cell := rfl
  owed _ := .rfl
  stateLaw _ := by
    by_cases h : r.versions = []
    · simp [Record.adopted, Record.stateLaw, h, deadlineOf_eq_none_iff]
    · simp [Record.adopted, Record.stateLaw, h, deadlineOf_eq_none_iff]

theorem Record.Rewritten.lapsed {r : Record} {x : Stage} {p : Port} {d : Option Time} (h : r.life = .produced x p d) :
    r.Rewritten { r with life := .produced .stale p d } where
  key := rfl
  depth := rfl
  versions := rfl
  spares := rfl
  lastSequence := rfl
  cell := rfl
  owed _ := .rfl
  stateLaw hr := by
    cases x <;> simp only [Record.stateLaw, h] at hr ⊢
    · exact hr.2
    · exact hr.2
    · exact hr

theorem Record.Rewritten.orphaned (r : Record) (now : Time) : r.Rewritten { r with life := .orphaned now } :=
  ⟨rfl, rfl, rfl, rfl, rfl, rfl, fun _ => .rfl, fun _ => trivial⟩

/-- Two states hold the same cells, slots and pool. -/
structure SameStorage (s t : State) : Prop where
  slots : t.slots = s.slots
  cells : t.cells = s.cells
  free : t.free = s.free
  detached : t.detached = s.detached

/-- What a move can do to the cells, the slots and the pool. -/
inductive Stored (s t : State) : Prop where
  | same (h : SameStorage s t)
  | rewritten {k r r'} (hk : s.record k = some r) (hr : r.Rewritten r')
      (slots : t.slots = (s.setRecord k (some r')).slots)
      (cells : ∀ c, (t.cell c).pins = (s.cell c).pins ∧
        (t.cell c).content.sequence = (s.cell c).content.sequence)
      (free : t.free = s.free) (detached : t.detached = s.detached)
  | claimed {p k key depth period auto c rest} (hd : 1 ≤ depth ∧ depth ≤ 6) (hkey : s.slotWithKey key = none)
      (hk : s.record k = none) (hfree : s.free = c :: rest) (hrest : depth ≤ rest.length)
      (h : t = s.claimed p k key depth period auto c rest)
  | freed {k r} (hk : s.record k = some r) (h : t = s.freeSlot k)
  | committed {p k now tag m} (h : s.commitSlot p now tag k = some (t, m))

/-- A record of a slot rewritten, with nothing else of the storage changed. -/
theorem Stored.of_setRecord {k : SlotNo} {r r' : Record} (hk : s.record k = some r) (hr : r.Rewritten r') :
    Stored s (s.setRecord k (some r')) :=
  .rewritten hk hr rfl (fun _ => ⟨rfl, rfl⟩) rfl rfl

theorem Stored.closeOnSlot (s : State) (k : SlotNo) : Stored s (s.closeOnSlot k) := by
  unfold State.closeOnSlot
  split
  · exact .same ⟨rfl, rfl, rfl, rfl⟩
  · rename_i r hk
    exact .of_setRecord hk (.closed r)


theorem Move.stored (h : Move opens a s t) : Stored s t := by
  cases h with
  | claimed _ _ hd hkey hk hfree hrest => exact .claimed hd hkey hk hfree hrest rfl
  | @closed _ _ k r _ _ hk _ =>
    refine .rewritten hk (.closed r) ?_ (fun c => by simp) (by simp) (by simp)
    simp [State.closeUpdate, State.closeOnSlot, hk]
  | freed _ hk _ => exact .freed hk rfl
  | adopted _ _ hk _ => exact .of_setRecord hk (.adopted _ _ _)
  | opened _ _ hk _ hc _ =>
    exact .rewritten hk (.update hc (some { length := 0, overrun := false }))
      (by simp [Record.withUpdate]) (fun c => by simp) (by simp) (by simp)
  | committed _ _ _ _ ht => exact .committed ht
  | watched _ hk w => exact .of_setRecord hk ⟨rfl, rfl, rfl, rfl, rfl, rfl, fun _ => .rfl, id⟩
  | @staged _ _ k r c u hk hc _ v =>
    refine .rewritten hk (.update hc (some { u with length := u.length + 1 })) rfl (fun d => ?_) rfl rfl
    · rw [State.cell_setRecord, State.cell_setCell_eq]
      split
      · rename_i e
        subst e
        exact ⟨rfl, by simp only [Content.stage]; split <;> rfl⟩
      · exact ⟨rfl, rfl⟩
  | overrun hk hc => exact .of_setRecord hk (.update hc _)
  | lapsed _ hk hr _ => exact .of_setRecord hk (.lapsed hr)
  | orphaned _ hk _ _ =>
    exact .rewritten hk (.orphaned _ s.etc) (by simp) (fun c => by simp [State.cell]) (by simp) (by simp)
  | _ => exact .same ⟨by simp, by simp, by simp, by simp⟩

/-! ### Keys (R2) -/

theorem State.record_of_slots {u : State} (h : t.slots = u.slots) (k : SlotNo) : t.record k = u.record k := by
  simp [State.record, State.slot, h]

/-- Records that come from records of the same key keep the keys distinct. -/
theorem KeyLaw.of_records (hs : KeyLaw s)
    (h : ∀ k r', t.record k = some r' → ∃ r, s.record k = some r ∧ r.key = r'.key) : KeyLaw t := by
  intro i j x y hx hy hxy
  obtain ⟨x', hx', ex⟩ := h i x hx
  obtain ⟨y', hy', ey⟩ := h j y hy
  exact hs i j x' y' hx' hy' (ex.trans (hxy.trans ey.symm))

/-- No record holds a key that a search for it does not find. -/
theorem State.key_ne_of_slotWithKey {key : Key} (h : s.slotWithKey key = none) {k : SlotNo} {r : Record}
    (hk : s.record k = some r) : r.key ≠ key := by
  have := List.find?_eq_none.mp h k (mem_allSlots k)
  simpa [hk] using this

/-- The record a commit leaves on its slot, and that it had one before with an open update. -/
theorem State.commitSlot_record {now : Time} {tag : Option GroupTag} {k : SlotNo} {m : Published}
    (h : s.commitSlot p now tag k = some (t, m)) :
    ∃ r c u x, s.record k = some r ∧ r.next = .staging c (some u) ∧
      t.record k = some { r.rotated s c with
        lastSequence := nextSequence r.lastSequence, life := .produced .live p (deadlineOf r.period (now + r.period)),
        watch := x } ∧
      ∀ d, t.cell d = if d = c then
        { s.cell c with
          content := (s.cell c).content.committed (nextSequence r.lastSequence) now u.length tag } else s.cell d := by
  obtain ⟨r, c, u, hk, hc, rfl, -⟩ := State.commitSlot_some.mp h
  refine ⟨r, c, u, (evaluateWatch r.watch ((s.cell c).content.committed (nextSequence r.lastSequence) now u.length tag)).1,
    hk, hc, by simp, fun d => ?_⟩
  rw [State.cell_endEntriesOn, State.cell_updatePort, State.cell_setRecord, State.cell_setCell_eq]

/-- What the rotation of its cells leaves of a record. -/
@[simp] theorem Record.rotated_fields (r : Record) (s : State) (c : CellNo) :
    (r.rotated s c).key = r.key ∧ (r.rotated s c).depth = r.depth ∧ (r.rotated s c).period = r.period ∧
      (r.rotated s c).autoAnswer = r.autoAnswer := by
  obtain ⟨x, rest, -, -, h⟩ | ⟨-, h⟩ := r.rotated_cases s c <;> rw [h] <;> simp

theorem KeyLaw.stored (h : Stored s t) (hs : KeyLaw s) : KeyLaw t := by
  cases h with
  | same h => exact hs.of_records fun k r' hr' => ⟨r', by rw [← State.record_of_slots h.slots]; exact hr', rfl⟩
  | @rewritten k r r' hk hr slots =>
    refine hs.of_records fun j x hx => ?_
    rw [State.record_of_slots slots, State.record_setRecord_eq] at hx
    split at hx
    · rename_i e
      subst e
      exact ⟨r, hk, by rw [← Option.some.inj hx, hr.key]⟩
    · exact ⟨x, hx, rfl⟩
  | freed hk h =>
    refine hs.of_records fun j x hx => ?_
    rw [h, State.record_freeSlot] at hx
    split at hx
    · exact absurd hx (by simp)
    · exact ⟨x, hx, rfl⟩
  | @committed p k now tag m h =>
    obtain ⟨r, c, u, w, hk, -, hr, -⟩ := State.commitSlot_record h
    refine hs.of_records fun j x hx => ?_
    by_cases e : j = k
    · subst e
      rw [hr] at hx
      exact ⟨r, hk, by rw [← Option.some.inj hx]; simp⟩
    · exact ⟨x, by rw [← (State.commitSlot_others h).1 j e]; exact hx, rfl⟩
  | claimed _ hkey hk _ _ h =>
    subst h
    intro i j x y hx hy hxy
    rw [State.record_claimed] at hx hy
    split at hx <;> split at hy
    · simp_all
    · obtain rfl := Option.some.inj hx
      exact absurd hxy.symm (State.key_ne_of_slotWithKey hkey hy)
    · obtain rfl := Option.some.inj hy
      exact absurd hxy (State.key_ne_of_slotWithKey hkey hx)
    · exact hs i j x y hx hy hxy

end Sys2Proof.Machine
end

section
/-! PROOF. Keys stay distinct, and every cell stays in exactly one use (R2, R7, R10). -/

namespace Sys2Proof.Machine

variable {opens : Prop} {a : Option Port} {p : Port} {s t : State}

/-! ### The acts that call for a grant, seen from the slots -/

/-- What closed updates, a routed cell, and every change outside slots, pool and contents keep, a cancelled fetch and
every other act that calls for a grant keeps. -/
theorem Stir.keeps {L : State → Prop}
    (same : ∀ s t : State, t.slots = s.slots → t.free = s.free → t.detached = s.detached →
      (∀ c, (t.cell c).content = (s.cell c).content) → L s → L t)
    (closed : ∀ s k, L s → L (s.closeOnSlot k)) (routed : ∀ s c, L s → L (s.routeUnpinned c)) (h : Stir a s t)
    (hs : L s) : L t := by
  have unpinned : ∀ s c, L s → L (s.unpinCell c) := by
    intro s c hs
    have lowered : L (s.setCell c { s.cell c with pins := (s.cell c).pins - 1 }) :=
      same _ _ (by simp) (by simp) (by simp) (fun d => by rw [State.cell_setCell_eq]; split <;> simp_all) hs
    unfold State.unpinCell
    split
    · exact routed _ _ lowered
    · exact lowered
  have listClosed : ∀ (ks : List SlotNo) s, L s → L (ks.foldl State.closeOnSlot s) := by
    intro ks
    induction ks with
    | nil => exact fun s hs => hs
    | cons k ks ih => exact fun s hs => ih _ (closed s k hs)
  cases h with
  | pushed => exact same s _ rfl rfl rfl (fun _ => rfl) hs
  | fetched => exact same s _ (by simp) (by simp) (by simp) (fun c => by simp) hs
  | @left p =>
    have unit : L (s.leftUnit p) :=
      same _ _ (by simp [State.leftUnit]) (by simp) (by simp) (fun c => by simp) (listClosed (s.port p).openList s hs)
    have cancelled : ∀ u, L u → L (u.cancelFetch (s.port p).fetch) := by
      intro u hu
      cases (s.port p).fetch with
      | idle => exact hu
      | ready => exact hu
      | inFlight x c =>
        rw [State.cancelFetch_inFlight]
        exact unpinned _ c (same u _ rfl rfl rfl (fun _ => rfl) hu)
    rw [State.leftBy_eq]
    exact same _ _ (by simp) (by simp) (by simp) (fun c => by simp) (cancelled _ unit)
  | distributed => exact same s _ (by simp) (by simp) (by simp) (fun c => by simp [State.cell]) hs
  | @copied p c =>
    have delivered : L (s.updatePort p fun u => u.delivered (s.cell c).content) :=
      same s _ (by simp) (by simp) (by simp) (fun d => by simp) hs
    exact same (State.unpinCell _ c) _ rfl rfl rfl (fun _ => rfl) (unpinned _ c delivered)

/-- A grant changes nothing of slots, pool and contents. -/
theorem State.grant_keeps {L : State → Prop}
    (same : ∀ s t : State, t.slots = s.slots → t.free = s.free → t.detached = s.detached →
      (∀ c, (t.cell c).content = (s.cell c).content) → L s → L t) (hs : L s) : L s.grant :=
  same s _ (by simp) (by simp) (by simp) (fun c => by simp) hs

/-! ### The state after a reset of the part (R165) -/

@[simp] theorem State.record_resetWith (s : State) (b : Bool) (k : SlotNo) : (s.resetWith b).record k = none := by
  change ((Vector.replicate 64 Slot.free)[k]).record = none
  simp [Slot.free]

@[simp] theorem State.entry_resetWith (s : State) (b : Bool) (i : EntryNo) : (s.resetWith b).entry i = none := by
  change (Vector.replicate 16 none)[i] = none
  simp

@[simp] theorem State.port_resetWith (s : State) (b : Bool) (q : Port) :
    (s.resetWith b).port q = (s.port q).afterReset := by
  cases q <;> rfl

@[simp] theorem State.cell_resetWith (s : State) (b : Bool) (c : CellNo) : (s.resetWith b).cell c = .blank := by
  change (Vector.replicate 384 Cell.blank)[c] = .blank
  simp

theorem State.resetWith_fields (s : State) (b : Bool) :
    (s.resetWith b).free = List.finRange 384 ∧ (s.resetWith b).detached = [] ∧ (s.resetWith b).jobs = [] ∧
      (s.resetWith b).path = none ∧ (s.resetWith b).mode = .setup ∧ (s.resetWith b).etc = 0 ∧
      (s.resetWith b).prescaler = 0 ∧ (s.resetWith b).scan = 0 := by
  simp only [State.resetWith, State.resetPart, State.reset, and_self]

/-! ### Keys (R2) -/

theorem KeyLaw.of_slots (hs : KeyLaw s) (h : t.slots = s.slots) : KeyLaw t :=
  hs.of_records fun k r' hr' => ⟨r', by rw [← State.record_of_slots h]; exact hr', rfl⟩

theorem KeyLaw.routeUnpinned (hs : KeyLaw s) (c : CellNo) : KeyLaw (s.routeUnpinned c) :=
  hs.of_records fun k r' hr' => by
    obtain h | ⟨r, hk, -, h⟩ := s.record_routeUnpinned c k <;> rw [h] at hr'
    · exact ⟨r', hr', rfl⟩
    · exact ⟨r, hk, by rw [← Option.some.inj hr']⟩

/-- Settles O52: a rewritten record keeps its key, and a CLAIM takes a key that no record holds. -/
theorem keysStayDistinct : Obligations.KeysStayDistinct := by
  intro s t hs h
  have same : ∀ s t : State, t.slots = s.slots → t.free = s.free → t.detached = s.detached →
      (∀ c, (t.cell c).content = (s.cell c).content) → KeyLaw s → KeyLaw t := fun _ _ h _ _ _ hs => hs.of_slots h
  exact step_keeps (fun _ _ h => h) (fun s b i j x y hx => by simp at hx) (fun _ _ _ h hs => hs.stored h.stored)
    (fun _ _ _ h hs => h.keeps same (fun s k hs => hs.stored (.closeOnSlot s k)) (fun _ c hs => hs.routeUnpinned c) hs)
    (fun _ hs => State.grant_keeps same hs) hs h

/-! ### The cells a state holds, counted (R7, R10) -/

/-- The cells of a slot: those of its record, or none. -/
def State.cellsAt (s : State) (k : SlotNo) : List CellNo :=
  match s.record k with
  | some r => r.cells
  | none => []

theorem State.cellsAt_of_record {k : SlotNo} {r : Record} (h : s.record k = some r) : s.cellsAt k = r.cells := by
  simp [State.cellsAt, h]

theorem State.cellsAt_of_free {k : SlotNo} (h : s.record k = none) : s.cellsAt k = [] := by
  simp [State.cellsAt, h]

theorem State.cellsAt_congr {k : SlotNo} (h : t.record k = s.record k) : t.cellsAt k = s.cellsAt k := by
  simp [State.cellsAt, h]

theorem State.count_heldCells (s : State) (c : CellNo) :
    s.heldCells.count c = s.free.count c + s.detached.count c + ∑ k, (s.cellsAt k).count c := by
  have held : s.heldCells = s.free ++ s.detached ++ allSlots.flatMap s.cellsAt := rfl
  rw [held, List.count_append, List.count_append, List.count_flatMap, allSlots, Fin.sum_univ_def]
  rfl

/-- One slot's cells changed: the sum over the slots changes by them. -/
theorem State.sum_cellsAt_change {k : SlotNo} (h : ∀ j, j ≠ k → t.record j = s.record j) (c : CellNo) :
    ∑ j, (t.cellsAt j).count c + (s.cellsAt k).count c = ∑ j, (s.cellsAt j).count c + (t.cellsAt k).count c := by
  rw [← Finset.add_sum_erase _ _ (Finset.mem_univ k), ← Finset.add_sum_erase _ (fun j => (s.cellsAt j).count c)
    (Finset.mem_univ k)]
  have others : ∑ j ∈ Finset.univ.erase k, (t.cellsAt j).count c = ∑ j ∈ Finset.univ.erase k, (s.cellsAt j).count c :=
    Finset.sum_congr rfl fun j hj => by rw [State.cellsAt_congr (h j (Finset.ne_of_mem_erase hj))]
  rw [others]
  omega

/-- The numbers of cells of a record follow its depth (R10). -/
def Record.Sized (r : Record) : Prop := r.versions.length + r.spares.length = r.depth ∧ 1 ≤ r.depth ∧ r.depth ≤ 6

theorem CellLaw.count_eq (hs : CellLaw s) (c : CellNo) :
    s.free.count c + s.detached.count c + ∑ k, (s.cellsAt k).count c = 1 := by
  rw [← State.count_heldCells]
  exact hs.1 c

theorem CellLaw.sized (hs : CellLaw s) {k : SlotNo} {r : Record} (h : s.record k = some r) : r.Sized := hs.2 k r h

/-- The law of the cells after a change of one slot, of the pool and of the detached cells: what one of them loses
another gains. -/
theorem CellLaw.of_change (hs : CellLaw s) {k : SlotNo} (h : ∀ j, j ≠ k → t.record j = s.record j)
    (count : ∀ c, t.free.count c + t.detached.count c + (t.cellsAt k).count c =
      s.free.count c + s.detached.count c + (s.cellsAt k).count c)
    (sized : ∀ r, t.record k = some r → r.Sized) : CellLaw t := by
  refine ⟨fun c => ?_, fun j r hr => ?_⟩
  · rw [State.count_heldCells]
    have sum := State.sum_cellsAt_change h c
    have before := hs.count_eq c
    have moved := count c
    omega
  · by_cases e : j = k
    · subst e; exact sized r hr
    · exact hs.sized (by rw [← h j e]; exact hr)

theorem CellLaw.of_same (hs : CellLaw s) (slots : t.slots = s.slots) (free : t.free = s.free)
    (detached : t.detached = s.detached) : CellLaw t := by
  have record := State.record_of_slots slots
  exact hs.of_change (k := 0) (fun j _ => record j) (fun c => by rw [free, detached, State.cellsAt_congr (record 0)])
    fun r hr => hs.sized (by rw [← record 0]; exact hr)

/-- A record rewritten on the same cells keeps the law of the cells. -/
theorem CellLaw.of_record (hs : CellLaw s) {k : SlotNo} {r r' : Record} (hk : s.record k = some r)
    (slots : t.slots = (s.setRecord k (some r')).slots) (free : t.free = s.free) (detached : t.detached = s.detached)
    (cells : r'.cells.Perm r.cells) (sized : r.Sized → r'.Sized) : CellLaw t := by
  have record : ∀ j, t.record j = if j = k then some r' else s.record j := fun j => by
    rw [State.record_of_slots slots, State.record_setRecord_eq]
  have atk : t.record k = some r' := by rw [record, if_pos rfl]
  refine hs.of_change (k := k) (fun j hj => by rw [record, if_neg hj]) (fun c => ?_) fun x hx => ?_
  · rw [free, detached, State.cellsAt_of_record atk, State.cellsAt_of_record hk, cells.count_eq c]
  · obtain rfl := Option.some.inj (atk.symm.trans hx)
    exact sized (hs.sized hk)

theorem CellLaw.claimed (hs : CellLaw s) {k : SlotNo} {key : Key} {depth : Nat} {period : Time} {auto : Bool} {c : CellNo}
    {rest : List CellNo} (hd : 1 ≤ depth ∧ depth ≤ 6) (hk : s.record k = none) (hfree : s.free = c :: rest)
    (hrest : depth ≤ rest.length) : CellLaw (s.claimed p k key depth period auto c rest) := by
  have record := s.record_claimed p k key depth period auto c rest
  have atk := record k
  rw [if_pos rfl] at atk
  refine hs.of_change (k := k) (fun j hj => by rw [record, if_neg hj]) (fun d => ?_) fun r hr => ?_
  · rw [State.cellsAt_of_record atk, State.cellsAt_of_free hk, cells_claimedRecord, hfree]
    have split : (rest.take depth).count d + (rest.drop depth).count d = rest.count d := by
      rw [← List.count_append, List.take_append_drop]
    simp only [State.claimed_fields, List.count_append, List.count_cons, List.count_nil]
    omega
  · obtain rfl := Option.some.inj (atk.symm.trans hr)
    exact ⟨by simp [claimedRecord, hrest], hd⟩

/-- A freed slot gives all its cells to the pool and to the detached cells (R19). -/
theorem State.count_freeSlot {k : SlotNo} {r : Record} (hk : s.record k = some r) (c : CellNo) :
    (s.freeSlot k).free.count c + (s.freeSlot k).detached.count c =
      s.free.count c + s.detached.count c + r.cells.count c := by
  have versions := (List.filter_append_perm (fun c => decide (0 < (s.cell c).pins)) r.versions).count_eq c
  have unpinned : (fun c => decide ((s.cell c).pins = 0)) = fun c => !decide (0 < (s.cell c).pins) := by
    funext d
    simp [Nat.pos_iff_ne_zero]
  rw [List.count_append] at versions
  unfold State.freeSlot
  rw [hk]
  simp only [unpinned]
  cases hn : r.next <;> simp only [Record.cells, hn, NextCell.cell, List.count_append, State.setRecord_fields] <;> omega

theorem CellLaw.freeSlot (hs : CellLaw s) {k : SlotNo} {r : Record} (hk : s.record k = some r) :
    CellLaw (s.freeSlot k) := by
  refine hs.of_change (k := k) (fun j hj => by simp [hj]) (fun c => ?_) fun r hr => by simp at hr
  rw [State.cellsAt_of_free (by simp), State.cellsAt_of_record hk, State.count_freeSlot hk]
  simp

/-- The rotation of R11 keeps the cells of a record and their numbers. -/
theorem Record.rotated_cells {r : Record} (hr : r.Sized) {c : CellNo} (hc : r.next.cell = c) (s : State) :
    (r.rotated s c).cells.Perm r.cells ∧ (r.rotated s c).Sized := by
  obtain ⟨hlen, h1, h6⟩ := hr
  subst hc
  obtain ⟨x, rest, -, hx, h⟩ | ⟨hfull, h⟩ := r.rotated_cases s r.next.cell <;> rw [h]
  · constructor
    · simp only [Record.cells, NextCell.cell, hx]
      rw [List.perm_iff_count]
      intro d
      simp only [List.count_append, List.count_cons, List.count_nil]
      omega
    · rw [hx, List.length_cons] at hlen
      exact ⟨by simp only [List.length_append, List.length_singleton]; omega, h1, h6⟩
  · cases hv : r.versions with
    | nil =>
      rw [hv] at hlen hfull
      rcases hfull with hfull | hfull
      · simp only [List.length_nil] at hfull; omega
      · simp only [List.length_nil, hfull] at hlen; omega
    | cons o vs =>
      rw [hv, List.length_cons] at hlen
      have out : (rotateOut (s.cell o).pins o).cell = o := by unfold rotateOut; split <;> rfl
      constructor
      · simp only [Record.cells, List.headD_cons, List.cons_append, List.tail_cons, out, hv]
        rw [List.perm_iff_count]
        intro d
        simp only [List.count_append, List.count_cons, List.count_nil]
        omega
      · exact ⟨by simp only [List.cons_append, List.tail_cons, List.length_append, List.length_singleton]; omega, h1, h6⟩

theorem CellLaw.commitSlot (hs : CellLaw s) {now : Time} {tag : Option GroupTag} {k : SlotNo} {m : Published}
    (h : s.commitSlot p now tag k = some (t, m)) : CellLaw t := by
  obtain ⟨r, c, u, x, hk, hc, hr, -⟩ := State.commitSlot_record h
  obtain ⟨others, -, -⟩ := State.commitSlot_others h
  obtain ⟨-, -, -, -, -, -, -, -, hfree, hdetached, -⟩ := State.commitSlot_fields h
  obtain ⟨cells, sized⟩ := Record.rotated_cells (hs.sized hk) (c := c) (by simp [hc, NextCell.cell]) s
  refine hs.of_change (k := k) others (fun d => ?_) fun y hy => ?_
  · rw [hfree, hdetached, State.cellsAt_of_record hr, State.cellsAt_of_record hk]
    exact congrArg (_ + ·) (cells.count_eq d)
  · obtain rfl := Option.some.inj (hr.symm.trans hy)
    exact sized

theorem Record.Rewritten.cells_eq {r r' : Record} (h : r.Rewritten r') : r'.cells = r.cells := by
  simp [Record.cells, h.versions, h.spares, h.cell]

theorem Record.Rewritten.sized {r r' : Record} (h : r.Rewritten r') (hr : r.Sized) : r'.Sized := by
  simpa [Record.Sized, h.versions, h.spares, h.depth] using hr

theorem CellLaw.stored (h : Stored s t) (hs : CellLaw s) : CellLaw t := by
  cases h with
  | same h => exact hs.of_same h.slots h.free h.detached
  | rewritten hk hr slots _ free detached => exact hs.of_record hk slots free detached (.of_eq hr.cells_eq) hr.sized
  | claimed hd _ hk hfree hrest h => rw [h]; exact hs.claimed hd hk hfree hrest
  | freed hk h => rw [h]; exact hs.freeSlot hk
  | committed h => exact hs.commitSlot h

/-- A routed cell moves from the detached cells to the pool, or stays with its slot (R9). -/
theorem CellLaw.routeUnpinned (hs : CellLaw s) (c : CellNo) : CellLaw (s.routeUnpinned c) := by
  by_cases hc : c ∈ s.detached
  · rw [State.routeUnpinned_detached hc]
    refine hs.of_change (k := 0) (fun j _ => rfl) (fun d => ?_) fun r hr => hs.sized hr
    have erased := (List.perm_cons_erase hc).count_eq d
    rw [List.count_cons] at erased
    simp only [List.count_append, List.count_cons, List.count_nil]
    have same : State.cellsAt { s with detached := s.detached.erase c, free := s.free ++ [c] } 0 = s.cellsAt 0 := rfl
    rw [same]
    omega
  · obtain ⟨free, detached⟩ := State.routeUnpinned_listed hc
    unfold State.routeUnpinned at free detached ⊢
    split
    · rename_i h
      exact absurd (by simpa using h) hc
    · split
      · exact hs
      · rename_i k hk
        split
        · exact hs
        · rename_i r hr
          have owed : r.next = .owed c := by simpa [hr] using List.find?_some hk
          exact hs.of_record hr rfl rfl rfl (.of_eq (by simp [Record.cells, owed, NextCell.cell])) id

theorem CellLaw.resetWith (s : State) (b : Bool) : CellLaw (s.resetWith b) := by
  obtain ⟨free, detached, -⟩ := s.resetWith_fields b
  refine ⟨fun c => ?_, fun k r h => by simp at h⟩
  have none : ∀ k, (s.resetWith b).cellsAt k = [] := fun k => State.cellsAt_of_free (by simp)
  rw [State.count_heldCells, free, detached]
  simp only [none, List.count_nil, Finset.sum_const_zero, Nat.add_zero]
  exact List.count_eq_one_of_mem (List.nodup_finRange 384) (List.mem_finRange c)

/-- The law of the cells is kept by every move, by every act that calls for a grant, and by a grant. -/
theorem CellLaw.move (h : Move opens a s t) (hs : CellLaw s) : CellLaw t := hs.stored h.stored

theorem CellLaw.stir (h : Stir a s t) (hs : CellLaw s) : CellLaw t :=
  h.keeps (fun _ _ slots free detached _ hs => hs.of_same slots free detached) (fun s k hs => hs.stored (.closeOnSlot s k))
    (fun _ c hs => hs.routeUnpinned c) hs

theorem CellLaw.grant (hs : CellLaw s) : CellLaw s.grant := hs.of_same (by simp) (by simp) (by simp)

/-- Settles O48: in every change of the storage, what a slot, the pool or the detached cells lose another gains. -/
theorem cellsStayAccounted : Obligations.CellsStayAccounted := fun _ _ hs h =>
  step_keeps (fun _ _ h => h) CellLaw.resetWith (fun _ _ _ h hs => hs.move h) (fun _ _ _ h hs => hs.stir h)
    (fun _ hs => hs.grant) hs h

end Sys2Proof.Machine
end

section
/-! PROOF. Pin counts stay the numbers of fetches in flight, and version lists stay consecutive (R6, R7, R8, R11). -/

namespace Sys2Proof.Machine

variable {opens : Prop} {a : Option Port} {p : Port} {s t : State}

/-! ### One use for each cell (R7) -/

theorem CellLaw.count_cellsAt_le (hs : CellLaw s) (k : SlotNo) (c : CellNo) :
    s.free.count c + s.detached.count c + (s.cellsAt k).count c ≤ 1 := by
  have one := hs.count_eq c
  have part := Finset.single_le_sum (f := fun j => (s.cellsAt j).count c) (fun _ _ => Nat.zero_le _) (Finset.mem_univ k)
  omega

/-- A cell of a slot is neither in the pool nor detached. -/
theorem CellLaw.listed (hs : CellLaw s) {k : SlotNo} {c : CellNo} (h : c ∈ s.cellsAt k) :
    c ∉ s.free ∧ c ∉ s.detached := by
  have le := hs.count_cellsAt_le k c
  have pos := List.count_pos_iff.mpr h
  exact ⟨List.count_eq_zero.mp (by omega), List.count_eq_zero.mp (by omega)⟩

/-- A detached cell is not in the pool, and detached once. -/
theorem CellLaw.of_detached (hs : CellLaw s) {c : CellNo} (h : c ∈ s.detached) :
    c ∉ s.free ∧ c ∉ s.detached.erase c := by
  have one := hs.count_eq c
  have pos := List.count_pos_iff.mpr h
  have erased := List.count_erase_self (a := c) (l := s.detached)
  exact ⟨List.count_eq_zero.mp (by omega), List.count_eq_zero.mp (by omega)⟩

/-- A cell is of one slot. -/
theorem CellLaw.slot_eq (hs : CellLaw s) {j k : SlotNo} {c : CellNo} (hj : c ∈ s.cellsAt j) (hk : c ∈ s.cellsAt k) :
    j = k := by
  by_contra h
  have one := hs.count_eq c
  rw [← Finset.add_sum_erase _ _ (Finset.mem_univ k)] at one
  have part := Finset.single_le_sum (s := Finset.univ.erase k) (f := fun i => (s.cellsAt i).count c)
    (fun _ _ => Nat.zero_le _) (Finset.mem_erase.mpr ⟨h, Finset.mem_univ j⟩)
  have posj := List.count_pos_iff.mpr hj
  have posk := List.count_pos_iff.mpr hk
  omega

theorem CellLaw.nodup (hs : CellLaw s) {k : SlotNo} {r : Record} (h : s.record k = some r) : r.cells.Nodup := by
  refine List.nodup_iff_count_le_one.mpr fun c => ?_
  have le := hs.count_cellsAt_le k c
  rw [State.cellsAt_of_record h] at le
  omega

/-- Versions, spare cells, and the staging or owed cell of a record are different cells. -/
theorem CellLaw.cells_distinct (hs : CellLaw s) {k : SlotNo} {r : Record} (h : s.record k = some r) :
    r.next.cell ∉ r.versions ∧ r.next.cell ∉ r.spares ∧ ∀ c ∈ r.versions, c ∉ r.spares := by
  have nodup := hs.nodup h
  rw [Record.cells, List.nodup_append', List.nodup_append'] at nodup
  obtain ⟨⟨-, -, apart⟩, -, last⟩ := nodup
  have next : ∀ c ∈ r.versions ++ r.spares, c ≠ r.next.cell := fun c hc e => last hc (by simp [e])
  exact ⟨fun hc => next _ (by simp [hc]) rfl, fun hc => next _ (by simp [hc]) rfl, fun c hc hx => apart hc hx⟩

theorem Record.mem_cells {r : Record} {c : CellNo} :
    c ∈ r.cells ↔ c ∈ r.versions ∨ c ∈ r.spares ∨ c = r.next.cell := by
  simp [Record.cells]

/-! ### Where a pin may stand (R7, R8) -/

/-- Where pins may stand: not in the pool, on no spare and no staging cell, and on every detached and owed cell. -/
structure PinsPlaced (s : State) : Prop where
  free : ∀ c ∈ s.free, (s.cell c).pins = 0
  detached : ∀ c ∈ s.detached, 0 < (s.cell c).pins
  spares : ∀ k r, s.record k = some r → ∀ c ∈ r.spares, (s.cell c).pins = 0
  staging : ∀ k r, s.record k = some r → ∀ c u, r.next = .staging c u → (s.cell c).pins = 0
  owed : ∀ k r, s.record k = some r → ∀ c, r.next = .owed c → 0 < (s.cell c).pins

/-- The fetches in flight on a cell. -/
def State.fetchesOn (s : State) (c : CellNo) : Nat :=
  (allPorts.filter fun q => (s.port q).fetch.pinned == some c).length

theorem pinLaw_iff : PinLaw s ↔ (∀ c, (s.cell c).pins = s.fetchesOn c) ∧ PinsPlaced s := by
  constructor
  · rintro ⟨count, free, detached, record⟩
    exact ⟨count, free, detached, fun k r h => (record k r h).1, fun k r h => (record k r h).2.1,
      fun k r h => (record k r h).2.2⟩
  · rintro ⟨count, placed⟩
    exact ⟨count, placed.free, placed.detached, fun k r h =>
      ⟨placed.spares k r h, placed.staging k r h, placed.owed k r h⟩⟩

theorem PinsPlaced.of_same (hs : PinsPlaced s) (slots : t.slots = s.slots) (free : t.free = s.free)
    (detached : t.detached = s.detached) (pins : ∀ c, (t.cell c).pins = (s.cell c).pins) : PinsPlaced t := by
  have record := State.record_of_slots slots
  constructor
  · simpa only [free, pins] using hs.free
  · simpa only [detached, pins] using hs.detached
  · simpa only [record, pins] using hs.spares
  · simpa only [record, pins] using hs.staging
  · simpa only [record, pins] using hs.owed

/-- One slot, the pool and the detached cells changed, and no pin count. -/
theorem PinsPlaced.of_change (hs : PinsPlaced s) {k : SlotNo} (record : ∀ j, j ≠ k → t.record j = s.record j)
    (pins : ∀ c, (t.cell c).pins = (s.cell c).pins) (free : ∀ c ∈ t.free, (s.cell c).pins = 0)
    (detached : ∀ c ∈ t.detached, 0 < (s.cell c).pins)
    (slot : ∀ r, t.record k = some r → (∀ c ∈ r.spares, (s.cell c).pins = 0) ∧
      (∀ c u, r.next = .staging c u → (s.cell c).pins = 0) ∧ ∀ c, r.next = .owed c → 0 < (s.cell c).pins) :
    PinsPlaced t := by
  have every : ∀ j r, t.record j = some r → (∀ c ∈ r.spares, (s.cell c).pins = 0) ∧
      (∀ c u, r.next = .staging c u → (s.cell c).pins = 0) ∧ ∀ c, r.next = .owed c → 0 < (s.cell c).pins := by
    intro j r hr
    by_cases e : j = k
    · subst e; exact slot r hr
    · rw [record j e] at hr
      exact ⟨hs.spares j r hr, hs.staging j r hr, hs.owed j r hr⟩
  constructor <;> simp only [pins]
  · exact free
  · exact detached
  · exact fun j r hr => (every j r hr).1
  · exact fun j r hr => (every j r hr).2.1
  · exact fun j r hr => (every j r hr).2.2

theorem PinsPlaced.freeSlot (hs : PinsPlaced s) {k : SlotNo} {r : Record} (hk : s.record k = some r) :
    PinsPlaced (s.freeSlot k) := by
  refine hs.of_change (k := k) (fun j hj => by simp [hj]) (fun c => by simp) ?_ ?_ fun r hr => by simp at hr
  · intro c hc
    unfold State.freeSlot at hc
    simp only [hk] at hc
    cases hn : r.next <;> simp only [hn, List.mem_append, List.mem_filter, decide_eq_true_eq, List.mem_singleton,
      State.setRecord_fields] at hc
    · obtain ((hc | hc) | hc) | rfl := hc
      · exact hs.free c hc
      · exact hc.2
      · exact hs.spares k r hk c hc
      · exact hs.staging k r hk _ _ hn
    · obtain (hc | hc) | hc := hc
      · exact hs.free c hc
      · exact hc.2
      · exact hs.spares k r hk c hc
  · intro c hc
    unfold State.freeSlot at hc
    simp only [hk] at hc
    cases hn : r.next <;> simp only [hn, List.mem_append, List.mem_filter, decide_eq_true_eq, List.mem_singleton,
      State.setRecord_fields] at hc
    · obtain hc | hc := hc
      · exact hs.detached c hc
      · exact hc.2
    · obtain (hc | hc) | rfl := hc
      · exact hs.detached c hc
      · exact hc.2
      · exact hs.owed k r hk _ hn

theorem PinsPlaced.commitSlot (hs : PinsPlaced s) {now : Time} {tag : Option GroupTag} {k : SlotNo} {m : Published}
    (h : s.commitSlot p now tag k = some (t, m)) : PinsPlaced t := by
  obtain ⟨r, c, u, x, hk, hc, hr, -⟩ := State.commitSlot_record h
  obtain ⟨others, -, pins⟩ := State.commitSlot_others h
  obtain ⟨-, -, -, -, -, -, -, -, hfree, hdetached, -⟩ := State.commitSlot_fields h
  refine hs.of_change (k := k) others pins (by rw [hfree]; exact hs.free) (by rw [hdetached]; exact hs.detached)
    fun y hy => ?_
  obtain rfl := Option.some.inj (hr.symm.trans hy)
  have spares := hs.spares k r hk
  obtain ⟨z, rest, -, hz, e⟩ | ⟨-, e⟩ := r.rotated_cases s c <;> rw [e]
  · rw [hz] at spares
    refine ⟨fun d hd => spares d (List.mem_cons_of_mem _ hd), fun d v hd => ?_, fun d hd => by simp at hd⟩
    obtain ⟨rfl, -⟩ := NextCell.staging.inj hd
    exact spares _ (List.mem_cons_self ..)
  · refine ⟨spares, fun d v hd => ?_, fun d hd => ?_⟩ <;> simp only [rotateOut] at hd <;> split at hd
    · rename_i zero
      obtain ⟨rfl, -⟩ := NextCell.staging.inj hd
      exact zero
    · exact absurd hd (by simp)
    · exact absurd hd (by simp)
    · rename_i pos
      obtain rfl := NextCell.owed.inj hd
      exact Nat.pos_of_ne_zero pos

theorem PinsPlaced.stored (h : Stored s t) (hs : PinsPlaced s) : PinsPlaced t := by
  cases h with
  | same h => exact hs.of_same h.slots h.free h.detached fun c => by simp [State.cell, h.cells]
  | @rewritten k r r' hk hr slots cells free detached =>
    have record : ∀ j, t.record j = if j = k then some r' else s.record j := fun j => by
      rw [State.record_of_slots slots, State.record_setRecord_eq]
    refine hs.of_change (k := k) (fun j hj => by rw [record, if_neg hj]) (fun c => (cells c).1)
      (by rw [free]; exact hs.free) (by rw [detached]; exact hs.detached) fun x hx => ?_
    rw [record, if_pos rfl] at hx
    obtain rfl := Option.some.inj hx
    refine ⟨by rw [hr.spares]; exact hs.spares k r hk, fun c u hc => ?_, fun c hc => hs.owed k r hk c ((hr.owed c).mp hc)⟩
    have cell := hr.cell
    rw [hc] at cell
    cases hn : r.next with
    | staging d v =>
      rw [hn] at cell
      obtain rfl : c = d := cell
      exact hs.staging k r hk _ _ hn
    | owed d => exact absurd ((hr.owed d).mpr hn) (by simp [hc])
  | @claimed p k key depth period auto c rest _ _ hk hfree _ h =>
    subst h
    have pool := hs.free
    rw [hfree] at pool
    have later : ∀ d ∈ rest, (s.cell d).pins = 0 := fun d hd => pool d (List.mem_cons_of_mem _ hd)
    have record := s.record_claimed p k key depth period auto c rest
    refine hs.of_change (k := k) (fun j hj => by rw [record, if_neg hj]) (fun d => by simp [State.cell])
      (fun d hd => later d (List.mem_of_mem_drop (by simpa using hd))) (by simpa using hs.detached) fun x hx => ?_
    rw [record, if_pos rfl] at hx
    obtain rfl := Option.some.inj hx
    refine ⟨fun d hd => later d (List.mem_of_mem_take hd), fun d u hd => ?_, fun d hd => by simp [claimedRecord] at hd⟩
    obtain ⟨rfl, -⟩ := NextCell.staging.inj hd
    exact pool _ (List.mem_cons_self ..)
  | freed hk h => rw [h]; exact hs.freeSlot hk
  | committed h => exact hs.commitSlot h

/-- A cell that a slot owes is routed to that slot: it becomes the staging cell (R9). -/
theorem State.routeUnpinned_owed (hc : CellLaw s) {k : SlotNo} {r : Record} {c : CellNo} (hk : s.record k = some r)
    (hn : r.next = .owed c) : s.routeUnpinned c = s.setRecord k (some { r with next := .staging c none }) := by
  have owns : ∀ {j x}, s.record j = some x → x.next = .owed c → c ∈ s.cellsAt j := fun hj hx => by
    rw [State.cellsAt_of_record hj]
    exact Record.mem_cells.mpr (by simp [hx, NextCell.cell])
  have detached : s.detached.contains c = false := by simpa using (hc.listed (owns hk hn)).2
  have found : s.slotOwing c = some k := by
    cases hj : s.slotOwing c with
    | none => simpa [hk, hn] using List.find?_eq_none.mp hj k (mem_allSlots k)
    | some j =>
      have owing := List.find?_some hj
      cases hx : s.record j with
      | none => simp [hx] at owing
      | some x => rw [hc.slot_eq (owns hx (by simpa [hx] using owing)) (owns hk hn)]
  simp only [State.routeUnpinned, detached, Bool.false_eq_true, if_false, found, hk]

/-- A dropped pin keeps pins in their places: the last one of a detached or an owed cell routes the cell (R9). -/
theorem PinsPlaced.unpinCell (hs : PinsPlaced s) (hc : CellLaw s) {c : CellNo} (hp : 0 < (s.cell c).pins) :
    PinsPlaced (s.unpinCell c) := by
  have pins : ∀ d, ((s.unpinCell c).cell d).pins = if d = c then (s.cell d).pins - 1 else (s.cell d).pins := fun d => by simp
  have apart : ∀ d, (s.cell d).pins = 0 → ((s.unpinCell c).cell d).pins = 0 := fun d hd => by
    rw [pins, hd]; split <;> rfl
  have kept : ∀ d, d ≠ c → 0 < (s.cell d).pins → 0 < ((s.unpinCell c).cell d).pins := fun d e hd => by
    rwa [pins, if_neg e]
  by_cases last : (s.cell c).pins = 1
  · have zero : ((s.unpinCell c).cell c).pins = 0 := by rw [pins, if_pos rfl, last]
    have routed : s.unpinCell c = (s.setCell c { s.cell c with pins := (s.cell c).pins - 1 }).routeUnpinned c := by
      simp only [State.unpinCell, last, if_true]
    by_cases hd : c ∈ s.detached
    · have e : s.unpinCell c = { s.setCell c { s.cell c with pins := (s.cell c).pins - 1 } with
          detached := s.detached.erase c, free := s.free ++ [c] } := by
        rw [routed, State.routeUnpinned_detached (by simpa using hd)]
        simp
      have record : ∀ k, (s.unpinCell c).record k = s.record k := fun k => by rw [e]; rfl
      have unlisted : ∀ {k r}, s.record k = some r → ∀ d, d ∈ r.cells → d ≠ c := fun hk d hdr hdc =>
        (hc.listed (by rw [State.cellsAt_of_record hk]; exact hdr)).2 (hdc ▸ hd)
      constructor
      · intro d hdf
        rw [e] at hdf
        rcases List.mem_append.mp hdf with hdf | hdf
        · exact apart d (hs.free d hdf)
        · rw [List.mem_singleton.mp hdf]; exact zero
      · intro d hdd
        rw [e] at hdd
        exact kept d (fun hdc => (hc.of_detached hd).2 (hdc ▸ hdd)) (hs.detached d (List.mem_of_mem_erase hdd))
      · exact fun k r hr d hx => apart d (hs.spares k r (by rw [← record]; exact hr) d hx)
      · exact fun k r hr d u hx => apart d (hs.staging k r (by rw [← record]; exact hr) d u hx)
      · intro k r hr d hx
        rw [record] at hr
        exact kept d (unlisted hr d (Record.mem_cells.mpr (by simp [hx, NextCell.cell]))) (hs.owed k r hr d hx)
    · have same := State.routeUnpinned_listed (s := s.setCell c { s.cell c with pins := (s.cell c).pins - 1 }) (c := c)
        (by simpa using hd)
      rw [← routed] at same
      have record := State.record_unpinCell s c
      constructor
      · intro d hdf
        rw [same.1] at hdf
        exact apart d (hs.free d hdf)
      · intro d hdd
        rw [same.2] at hdd
        exact kept d (fun e => hd (e ▸ hdd)) (hs.detached d hdd)
      · intro k r hr d hx
        obtain h | ⟨r', hk, -, h⟩ := record k <;> rw [h] at hr
        · exact apart d (hs.spares k r hr d hx)
        · obtain rfl := Option.some.inj hr
          exact apart d (hs.spares k r' hk d hx)
      · intro k r hr d u hx
        obtain h | ⟨r', hk, -, h⟩ := record k <;> rw [h] at hr
        · exact apart d (hs.staging k r hr d u hx)
        · obtain rfl := Option.some.inj hr
          obtain ⟨rfl, -⟩ := NextCell.staging.inj hx
          exact zero
      · intro k r hr d hx
        obtain h | ⟨r', hk, -, h⟩ := record k
        · rw [h] at hr
          refine kept d ?_ (hs.owed k r hr d hx)
          rintro rfl
          have lowered : CellLaw (s.setCell d { s.cell d with pins := (s.cell d).pins - 1 }) :=
            hc.of_same (by simp) (by simp) (by simp)
          rw [routed, State.routeUnpinned_owed lowered (by simpa using hr) hx] at h
          rw [State.record_setRecord, hr] at h
          have next := congrArg Record.next (Option.some.inj h)
          rw [hx] at next
          exact absurd next (by simp)
        · rw [h] at hr
          obtain rfl := Option.some.inj hr
          exact absurd hx (by simp)
  · have e : s.unpinCell c = s.setCell c { s.cell c with pins := (s.cell c).pins - 1 } := by
      simp only [State.unpinCell, last, if_false]
    have record : ∀ k, (s.unpinCell c).record k = s.record k := fun k => by rw [e]; rfl
    have held : ∀ d, 0 < (s.cell d).pins → 0 < ((s.unpinCell c).cell d).pins := fun d hd => by
      rw [pins]; split <;> [(rename_i hdc; subst hdc; omega); exact hd]
    constructor
    · exact fun d hd => apart d (hs.free d (by rw [e] at hd; exact hd))
    · exact fun d hd => held d (hs.detached d (by rw [e] at hd; exact hd))
    · exact fun k r hr d hx => apart d (hs.spares k r (by rw [← record]; exact hr) d hx)
    · exact fun k r hr d u hx => apart d (hs.staging k r (by rw [← record]; exact hr) d u hx)
    · exact fun k r hr d hx => held d (hs.owed k r (by rw [← record]; exact hr) d hx)

/-! ### Pin counts and fetches (R8) -/

/-- A change of one port's fetch state changes the fetches on a cell by that port's. -/
theorem State.fetchesOn_change {p : Port} (h : ∀ q, q ≠ p → (t.port q).fetch.pinned = (s.port q).fetch.pinned)
    (c : CellNo) :
    t.fetchesOn c + (if (s.port p).fetch.pinned = some c then 1 else 0) =
      s.fetchesOn c + (if (t.port p).fetch.pinned = some c then 1 else 0) := by
  have count : ∀ u : State, u.fetchesOn c = (allPorts.map fun q => if (u.port q).fetch.pinned = some c then 1 else 0).sum := by
    intro u
    rw [State.fetchesOn, ← List.countP_eq_length_filter]
    induction allPorts with
    | nil => rfl
    | cons q qs ih => simp only [List.countP_cons, List.map_cons, List.sum_cons, ih, beq_iff_eq]; omega
  rw [count, count]
  have a := h .a
  have b := h .b
  have c := h .c
  have d := h .d
  cases p <;> simp only [allPorts, List.map_cons, List.map_nil, List.sum_cons, List.sum_nil] <;> simp_all <;> omega

theorem State.fetchesOn_congr (h : ∀ q, (t.port q).fetch.pinned = (s.port q).fetch.pinned) (c : CellNo) :
    t.fetchesOn c = s.fetchesOn c := by
  have change := State.fetchesOn_change (p := .a) (fun q _ => h q) c
  rw [h .a] at change
  omega

/-- A port whose fetch pins a cell is counted on it. -/
theorem State.fetchesOn_pos {c : CellNo} (h : (s.port p).fetch.pinned = some c) : 0 < s.fetchesOn c := by
  refine List.length_pos_iff.mpr (List.ne_nil_of_mem (a := p) ?_)
  simp [h]

@[simp] theorem FetchState.pinned_granted (f : FetchState) : f.granted.pinned = f.pinned := by
  cases f <;> rfl

theorem State.pinned_grant (s : State) (q : Port) : (s.grant.port q).fetch.pinned = (s.port q).fetch.pinned := by
  obtain h | h := s.port_grant q <;> rw [h]
  simp

/-- No move changes a pin count, or the cell that a fetch pins. -/
theorem Move.cell_pins (h : Move opens a s t) (c : CellNo) : (t.cell c).pins = (s.cell c).pins := by
  cases h with
  | committed _ _ _ _ ht => exact (State.commitSlot_others ht).2.2 c
  | staged => rw [State.cell_setRecord, State.cell_setCell_eq]; split <;> simp_all
  | _ => simp [State.cell]

theorem PortUnit.Touched.pinned {u w : PortUnit} (h : u.Touched w) : w.fetch.pinned = u.fetch.pinned := by
  obtain e | ⟨hu, hw⟩ := h.fetch
  · rw [e]
  · rw [hu, hw]; rfl

theorem Move.pinned (h : Move opens a s t) (q : Port) : (t.port q).fetch.pinned = (s.port q).fetch.pinned := by
  have updated : ∀ {p f}, (∀ u : PortUnit, (f u).fetch.pinned = u.fetch.pinned) →
      ((s.updatePort p f).port q).fetch.pinned = (s.port q).fetch.pinned := fun {p f} h => by
    rw [State.port_updatePort_eq]
    split
    · exact h _
    · rfl
  cases h with
  | @touched p _ w h =>
    by_cases e : q = p
    · subst e; simp [h.pinned]
    · simp [e]
  | committed _ _ _ _ ht => rw [State.commitSlot_port ht]; split <;> rfl
  | closed => rw [State.port_closeUpdate]; split <;> rfl
  | opened => simp only [State.port_updatePort_eq, State.port_setRecord]; split <;> rfl
  | orphaned => simp [State.orphaned]
  | joined | dozed | voted | queueSet | filtersSet | irqSet | pointed | grouped => exact updated fun _ => rfl
  | _ => simp

/-- The law of the pins needs the pins where they may stand, and each count to be the fetches on its cell. -/
theorem PinLaw.move (h : Move opens a s t) (hs : PinLaw s) : PinLaw t := by
  obtain ⟨count, placed⟩ := pinLaw_iff.mp hs
  exact pinLaw_iff.mpr ⟨fun c => by rw [h.cell_pins, count, State.fetchesOn_congr h.pinned], placed.stored h.stored⟩

theorem PinLaw.grant (hs : PinLaw s) : PinLaw s.grant := by
  obtain ⟨count, placed⟩ := pinLaw_iff.mp hs
  exact pinLaw_iff.mpr ⟨fun c => by simp [count, State.fetchesOn_congr s.pinned_grant],
    placed.of_same (by simp) (by simp) (by simp) fun c => by simp⟩

theorem PinLaw.resetWith (s : State) (b : Bool) : PinLaw (s.resetWith b) := by
  obtain ⟨-, detached, -⟩ := s.resetWith_fields b
  refine pinLaw_iff.mpr ⟨fun c => ?_, ?_⟩
  · simp [State.fetchesOn, Cell.blank, PortUnit.afterReset, PortUnit.reset, FetchState.pinned]
  · exact ⟨fun c _ => by simp [Cell.blank], fun c hc => by simp [detached] at hc, fun k r hk => by simp at hk,
      fun k r hk => by simp at hk, fun k r hk => by simp at hk⟩

/-- A fetch taken pins a version, which is neither in the pool nor a spare or staging cell (R8, R93). -/
theorem PinLaw.fetched (hc : CellLaw s) (hs : PinLaw s) {k : SlotNo} {r : Record} {c : CellNo} (hk : s.record k = some r)
    (hv : c ∈ r.versions) (hf : (s.port p).fetch.isInFlight = false) :
    PinLaw ((s.pinCell c).updatePort p fun u => u.fetchTaken k c) := by
  obtain ⟨count, placed⟩ := pinLaw_iff.mp hs
  have hcell : c ∈ s.cellsAt k := by rw [State.cellsAt_of_record hk]; exact Record.mem_cells.mpr (.inl hv)
  have others : ∀ {j x}, s.record j = some x → c ∉ x.spares ∧ c ≠ x.next.cell := by
    intro j x hj
    have same : c ∈ x.cells → x = r := fun hx => by
      have e := hc.slot_eq (j := j) (by rw [State.cellsAt_of_record hj]; exact hx) hcell
      subst e
      exact Option.some.inj (hj.symm.trans hk)
    obtain ⟨hnv, -, hvs⟩ := hc.cells_distinct hk
    constructor
    · intro hx
      obtain rfl := same (Record.mem_cells.mpr (.inr (.inl hx)))
      exact hvs c hv hx
    · intro hx
      obtain rfl := same (Record.mem_cells.mpr (.inr (.inr hx)))
      exact hnv (hx ▸ hv)
  have pins : ∀ d, (((s.pinCell c).updatePort p fun u => u.fetchTaken k c).cell d).pins =
      if d = c then (s.cell d).pins + 1 else (s.cell d).pins := fun d => by simp
  have unpinned : ∀ d, d ≠ c → (((s.pinCell c).updatePort p fun u => u.fetchTaken k c).cell d).pins = (s.cell d).pins :=
    fun d hd => by rw [pins, if_neg hd]
  have pinned : ∀ d, 0 < (s.cell d).pins → 0 < (((s.pinCell c).updatePort p fun u => u.fetchTaken k c).cell d).pins :=
    fun d hd => by rw [pins]; split <;> omega
  refine pinLaw_iff.mpr ⟨fun d => ?_, ?_, ?_, ?_, ?_, ?_⟩
  · have change := State.fetchesOn_change (s := s) (t := (s.pinCell c).updatePort p fun u => u.fetchTaken k c) (p := p)
      (fun q hq => by simp [hq]) d
    have before : (s.port p).fetch.pinned = none := by
      cases h : (s.port p).fetch <;> simp_all [FetchState.isInFlight, FetchState.pinned]
    have after : (((s.pinCell c).updatePort p fun u => u.fetchTaken k c).port p).fetch.pinned = some c := by
      simp [PortUnit.fetchTaken, FetchState.pinned]
    rw [before, after] at change
    rw [pins, count]
    by_cases e : d = c
    · subst e; simp at change ⊢; omega
    · have e' : ¬ c = d := fun h => e h.symm
      simp [e, e'] at change ⊢; omega
  · intro d hd
    have hd : d ∈ s.free := by simpa using hd
    rw [unpinned d (fun e => (hc.listed hcell).1 (e ▸ hd)), placed.free d hd]
  · exact fun d hd => pinned d (placed.detached d (by simpa using hd))
  · intro j x hj d hd
    have hj : s.record j = some x := by simpa using hj
    rw [unpinned d (fun e => (others hj).1 (e ▸ hd)), placed.spares j x hj d hd]
  · intro j x hj d u hd
    have hj : s.record j = some x := by simpa using hj
    rw [unpinned d (fun e => (others hj).2 (by simp [hd, NextCell.cell, e])), placed.staging j x hj d u hd]
  · exact fun j x hj d hd => pinned d (placed.owed j x (by simpa using hj) d hd)

/-- A fetch that ends or is cancelled drops the pin of its cell, with the routing of R9: `u` is the state in which the
pin still stands and the fetch does not. -/
theorem PinLaw.unpinned {u : State} {c : CellNo} (hs : PinLaw s) (hf : (s.port p).fetch.pinned = some c)
    (hu : CellLaw u) (placed : PinsPlaced u) (pins : ∀ d, (u.cell d).pins = (s.cell d).pins)
    (idle : (u.port p).fetch.pinned = none)
    (others : ∀ q, q ≠ p → (u.port q).fetch.pinned = (s.port q).fetch.pinned) : PinLaw (u.unpinCell c) := by
  obtain ⟨count, -⟩ := pinLaw_iff.mp hs
  have pos : 0 < (u.cell c).pins := by
    rw [pins, count]
    exact State.fetchesOn_pos hf
  refine pinLaw_iff.mpr ⟨fun d => ?_, placed.unpinCell hu pos⟩
  have change := State.fetchesOn_change (s := s) (t := u.unpinCell c) (p := p) (fun q hq => by simp [others q hq]) d
  rw [hf, State.port_unpinCell, idle] at change
  rw [State.cell_unpinCell]
  simp only [pins, count d]
  by_cases e : d = c
  · subst e; simp at change ⊢; omega
  · have e' : ¬ c = d := fun h => e h.symm
    simp [e, e'] at change ⊢; omega

/-- The law of the pins follows the slots, the pool, the pin counts and the fetch states. -/
theorem PinLaw.of_same (hs : PinLaw s) (slots : t.slots = s.slots) (free : t.free = s.free)
    (detached : t.detached = s.detached) (pins : ∀ c, (t.cell c).pins = (s.cell c).pins)
    (pinned : ∀ q, (t.port q).fetch.pinned = (s.port q).fetch.pinned) : PinLaw t := by
  obtain ⟨count, placed⟩ := pinLaw_iff.mp hs
  exact pinLaw_iff.mpr ⟨fun c => by rw [pins, count, State.fetchesOn_congr pinned],
    placed.of_same slots free detached pins⟩

/-- The slots of an open list closed one after another keep the law of the cells and the places of pins. -/
theorem State.foldl_closeOnSlot_placed (ks : List SlotNo) (s : State) (hc : CellLaw s) (hs : PinsPlaced s) :
    CellLaw (ks.foldl State.closeOnSlot s) ∧ PinsPlaced (ks.foldl State.closeOnSlot s) := by
  induction ks generalizing s with
  | nil => exact ⟨hc, hs⟩
  | cons k ks ih => exact ih _ (hc.stored (.closeOnSlot s k)) (hs.stored (.closeOnSlot s k))

theorem PinLaw.left (hc : CellLaw s) (hs : PinLaw s) : PinLaw (s.leftBy p) := by
  obtain ⟨count, placed⟩ := pinLaw_iff.mp hs
  obtain ⟨cells, places⟩ := State.foldl_closeOnSlot_placed (s.port p).openList s hc placed
  have unitCells : CellLaw (s.leftUnit p) := cells.of_same (by simp [State.leftUnit]) (by simp) (by simp)
  have unitPlaced : PinsPlaced (s.leftUnit p) :=
    places.of_same (by simp [State.leftUnit]) (by simp) (by simp) fun c => by simp
  have idle : ((s.leftUnit p).port p).fetch.pinned = none := by rw [State.port_leftUnit, if_pos rfl]; rfl
  have others : ∀ q, q ≠ p → ((s.leftUnit p).port q).fetch.pinned = (s.port q).fetch.pinned := fun q hq => by
    rw [State.port_leftUnit, if_neg hq]
  have cancelled : PinLaw ((s.leftUnit p).cancelFetch (s.port p).fetch) := by
    have ended : (s.port p).fetch.pinned = none → PinLaw (s.leftUnit p) := fun h =>
      pinLaw_iff.mpr ⟨fun c => by
        rw [State.cell_leftUnit, count]
        refine (State.fetchesOn_congr (fun q => ?_) c).symm
        by_cases e : q = p
        · subst e; rw [idle, h]
        · exact others q e, unitPlaced⟩
    cases hf : (s.port p).fetch with
    | idle => exact ended (by rw [hf]; rfl)
    | ready => exact ended (by rw [hf]; rfl)
    | inFlight x c =>
      rw [State.cancelFetch_inFlight]
      exact hs.unpinned (p := p) (by rw [hf]; rfl) (unitCells.of_same rfl rfl rfl)
        (unitPlaced.of_same rfl rfl rfl fun _ => rfl) (fun d => s.cell_leftUnit p d ▸ rfl) (by simpa using idle)
        fun q hq => by simpa using others q hq
  rw [State.leftBy_eq]
  exact cancelled.of_same (by simp) (by simp) (by simp) (fun c => by simp) fun q => by simp

theorem PinLaw.stir (h : Stir a s t) (hc : CellLaw s) (hs : PinLaw s) : PinLaw t := by
  cases h with
  | pushed => exact hs.of_same rfl rfl rfl (fun _ => rfl) fun q => by simp
  | fetched _ _ hk hv hf => exact hs.fetched hc hk hv hf
  | left => exact hs.left hc
  | distributed =>
    exact hs.of_same (by simp) (by simp) (by simp) (fun c => by simp [State.cell]) fun q => by
      cases q <;> simp [State.distribute, State.port, State.updatePorts]
  | @copied p c s hp hf =>
    obtain ⟨-, placed⟩ := pinLaw_iff.mp hs
    have others : ∀ q, q ≠ p → ((s.updatePort p fun u => u.delivered (s.cell c).content).port q).fetch.pinned =
        (s.port q).fetch.pinned := fun q hq => by simp [hq]
    have dropped := hs.unpinned (u := s.updatePort p fun u => u.delivered (s.cell c).content) (p := p) (c := c)
      (by rw [hf]; rfl) (hc.of_same (by simp) (by simp) (by simp))
      (placed.of_same (by simp) (by simp) (by simp) fun d => by simp) (fun d => by simp)
      (by simp [PortUnit.delivered, FetchState.pinned]) others
    exact dropped.of_same rfl rfl rfl (fun _ => rfl) fun q => by cases q <;> rfl

/-- Settles O49: the fetches on a cell change with its pin count, and a version pinned is in one place. -/
theorem pinsStayFetches : Obligations.PinsStayFetches := by
  intro s t hc hs h
  have both : CellLaw t ∧ PinLaw t :=
    step_keeps (L := fun s => CellLaw s ∧ PinLaw s) (fun _ _ h => h) (fun s b => ⟨.resetWith s b, .resetWith s b⟩)
      (fun _ _ _ h hs => ⟨hs.1.move h, hs.2.move h⟩) (fun _ _ _ h hs => ⟨hs.1.stir h, hs.2.stir h hs.1⟩)
      (fun _ hs => ⟨hs.1.grant, hs.2.grant⟩) ⟨hc, hs⟩ h
  exact both.2

end Sys2Proof.Machine
end

section
/-! PROOF. Version lists stay consecutive, and slot states lawful (R6, R11, R38). -/

namespace Sys2Proof.Machine

variable {opens : Prop} {a : Option Port} {p : Port} {s t : State}

/-- The law of one record: its versions are consecutive up to its last sequence, and its state is one of R6. -/
def Record.VersionsLawful (r : Record) (sequence : CellNo → Seq) : Prop :=
  (r.lastSequence = 0 ↔ r.versions = []) ∧ Consecutive (r.versions.map sequence) ∧
    (∀ c, r.versions.getLast? = some c → sequence c = r.lastSequence) ∧ r.stateLaw

/-- The sequence number in a cell. -/
def State.sequenceOf (s : State) (c : CellNo) : Seq := (s.cell c).content.sequence

theorem versionLaw_iff : VersionLaw s ↔ ∀ k r, s.record k = some r → r.VersionsLawful s.sequenceOf := Iff.rfl

/-- A record's law depends on the sequence numbers of its versions alone. -/
theorem Record.VersionsLawful.congr {r : Record} {f g : CellNo → Seq} (h : r.VersionsLawful f)
    (e : ∀ c ∈ r.versions, g c = f c) : r.VersionsLawful g := by
  obtain ⟨hzero, hcons, hlast, hstate⟩ := h
  refine ⟨hzero, ?_, fun c hc => ?_, hstate⟩
  · rwa [List.map_congr_left e]
  · rw [e c (List.mem_of_getLast? hc), hlast c hc]

/-- Records that come from lawful records with the same versions and last sequence are lawful. -/
theorem VersionLaw.of_records (hs : VersionLaw s)
    (h : ∀ k r', t.record k = some r' → ∃ r, s.record k = some r ∧ r'.versions = r.versions ∧
      r'.lastSequence = r.lastSequence ∧ (r.stateLaw → r'.stateLaw))
    (sequence : ∀ c, t.sequenceOf c = s.sequenceOf c) : VersionLaw t := by
  refine versionLaw_iff.mpr fun k r' hr' => ?_
  obtain ⟨r, hk, hv, hl, hx⟩ := h k r' hr'
  obtain ⟨hzero, hcons, hlast, hstate⟩ := versionLaw_iff.mp hs k r hk
  have lawful : r'.VersionsLawful s.sequenceOf :=
    ⟨by rw [hl, hv]; exact hzero, by rw [hv]; exact hcons, by rw [hl, hv]; exact hlast, hx hstate⟩
  exact lawful.congr fun c _ => sequence c

theorem VersionLaw.of_slots (hs : VersionLaw s) (slots : t.slots = s.slots)
    (sequence : ∀ c, t.sequenceOf c = s.sequenceOf c) : VersionLaw t :=
  hs.of_records (fun k r hr => ⟨r, by rw [← State.record_of_slots slots]; exact hr, rfl, rfl, id⟩) sequence

/-- A sequence number is followed by the next one, as R38 counts them. -/
theorem nextSequence_eq (q : Seq) : nextSequence q = if q = 0xFFFFFFFF then 1 else q + 1 := rfl

/-- No sequence number after another is 0, which stands for no version yet (R38). -/
theorem nextSequence_ne_zero (q : Seq) : nextSequence q ≠ 0 := by
  rw [nextSequence_eq]
  split
  · decide
  · rename_i h
    bv_omega

/-- A list of versions stays consecutive when the next number is appended (R11). -/
theorem Consecutive.append {xs : List Seq} {y : Seq} (h : Consecutive xs)
    (hy : ∀ x, xs.getLast? = some x → y = nextSequence x) : Consecutive (xs ++ [y]) := by
  induction xs with
  | nil => trivial
  | cons x xs ih =>
    cases xs with
    | nil => exact ⟨hy x rfl, trivial⟩
    | cons z zs => exact ⟨h.1, ih h.2 fun w hw => hy w (by rw [List.getLast?_cons_cons]; exact hw)⟩

/-- A list of versions stays consecutive without its oldest (R11). -/
theorem Consecutive.tail {xs : List Seq} (h : Consecutive xs) : Consecutive xs.tail := by
  cases xs with
  | nil => trivial
  | cons x xs =>
    cases xs with
    | nil => trivial
    | cons y ys => exact h.2

/-- The versions after a commit: the staging cell is the newest, and the oldest may have left (R11). -/
theorem Record.rotated_versions (r : Record) (s : State) (c : CellNo) :
    (r.rotated s c).versions = r.versions ++ [c] ∨ (r.rotated s c).versions = (r.versions ++ [c]).tail ∧
      (r.depth ≤ r.versions.length ∨ r.spares = []) := by
  obtain ⟨x, rest, -, -, h⟩ | ⟨hfull, h⟩ := r.rotated_cases s c <;> rw [h]
  · exact .inl rfl
  · exact .inr ⟨rfl, hfull⟩

theorem VersionLaw.commitSlot (hc : CellLaw s) (hs : VersionLaw s) {now : Time} {tag : Option GroupTag} {k : SlotNo}
    {m : Published} (h : s.commitSlot p now tag k = some (t, m)) : VersionLaw t := by
  obtain ⟨r, c, u, x, hk, hn, hr, cells⟩ := State.commitSlot_record h
  obtain ⟨others, -, -⟩ := State.commitSlot_others h
  have next : r.next.cell = c := by simp [hn, NextCell.cell]
  have sequence : ∀ d, t.sequenceOf d = if d = c then nextSequence r.lastSequence else s.sequenceOf d := fun d => by
    unfold State.sequenceOf
    rw [cells]
    split <;> rfl
  have elsewhere : ∀ {j y}, s.record j = some y → c ∉ y.versions := by
    intro j y hj hv
    have e := hc.slot_eq (j := j) (k := k) (c := c) (by rw [State.cellsAt_of_record hj]; exact Record.mem_cells.mpr (.inl hv))
      (by rw [State.cellsAt_of_record hk]; exact Record.mem_cells.mpr (.inr (.inr next.symm)))
    subst e
    obtain rfl := Option.some.inj (hj.symm.trans hk)
    exact (hc.cells_distinct hk).1 (next ▸ hv)
  have unwritten : ∀ {j y}, s.record j = some y → ∀ d ∈ y.versions, t.sequenceOf d = s.sequenceOf d := by
    intro j y hj d hd
    rw [sequence, if_neg fun e => elsewhere hj (by rw [← e]; exact hd)]
  refine versionLaw_iff.mpr fun j y hy => ?_
  by_cases e : j = k
  · subst e
    obtain rfl := Option.some.inj (hr.symm.trans hy)
    obtain ⟨hzero, hcons, hlast, -⟩ := versionLaw_iff.mp hs j r hk
    have all : Consecutive ((r.versions ++ [c]).map t.sequenceOf) := by
      rw [List.map_append, List.map_congr_left (unwritten hk), List.map_singleton, sequence, if_pos rfl]
      refine hcons.append fun q hq => ?_
      rw [List.getLast?_map] at hq
      obtain ⟨d, hd, rfl⟩ := Option.map_eq_some_iff.mp hq
      rw [hlast d hd]
    have sized := hc.sized hk
    have nonempty : (r.rotated s c).versions ≠ [] ∧ (r.rotated s c).versions.getLast? = some c := by
      obtain hv | ⟨hv, hfull⟩ := r.rotated_versions s c <;> rw [hv]
      · simp
      · obtain ⟨hlen, h1, -⟩ := sized
        cases hvs : r.versions with
        | nil =>
          rw [hvs] at hlen hfull
          rcases hfull with hfull | hfull
          · simp only [List.length_nil] at hfull; omega
          · simp only [List.length_nil, hfull] at hlen; omega
        | cons o vs => simp
    refine ⟨?_, ?_, fun d hd => ?_, nonempty.1, ?_⟩
    · exact ⟨fun h => absurd h (nextSequence_ne_zero _), fun h => absurd h nonempty.1⟩
    · obtain hv | ⟨hv, -⟩ := r.rotated_versions s c <;> simp only [hv]
      · exact all
      · rw [List.map_tail]; exact all.tail
    · obtain rfl := Option.some.inj (nonempty.2.symm.trans hd)
      rw [sequence, if_pos rfl]
    · rw [deadlineOf_eq_none_iff]
      simp
  · rw [others j e] at hy
    exact (versionLaw_iff.mp hs j y hy).congr (unwritten hy)

theorem VersionLaw.stored (h : Stored s t) (hc : CellLaw s) (hs : VersionLaw s) : VersionLaw t := by
  cases h with
  | same h => exact hs.of_slots h.slots fun c => by simp [State.sequenceOf, State.cell, h.cells]
  | @rewritten k r r' hk hr slots cells =>
    refine hs.of_records (fun j x hx => ?_) fun c => (cells c).2
    rw [State.record_of_slots slots, State.record_setRecord_eq] at hx
    split at hx
    · rename_i e
      subst e
      obtain rfl := Option.some.inj hx
      exact ⟨r, hk, hr.versions, hr.lastSequence, hr.stateLaw⟩
    · exact ⟨x, hx, rfl, rfl, id⟩
  | claimed _ _ _ _ _ h =>
    subst h
    refine versionLaw_iff.mpr fun j x hx => ?_
    rw [State.record_claimed] at hx
    split at hx
    · obtain rfl := Option.some.inj hx
      exact ⟨by simp [claimedRecord], trivial, by simp [claimedRecord], rfl, deadlineOf_eq_none_iff⟩
    · exact (versionLaw_iff.mp hs j x hx).congr fun c _ => by simp [State.sequenceOf, State.cell]
  | freed _ h =>
    subst h
    refine hs.of_records (fun j x hx => ?_) fun c => by simp [State.sequenceOf]
    rw [State.record_freeSlot] at hx
    split at hx
    · exact absurd hx (by simp)
    · exact ⟨x, hx, rfl, rfl, id⟩
  | committed h => exact hs.commitSlot hc h

theorem VersionLaw.routeUnpinned (hs : VersionLaw s) (c : CellNo) : VersionLaw (s.routeUnpinned c) := by
  refine hs.of_records (fun k r' hr' => ?_) fun d => by simp [State.sequenceOf]
  obtain h | ⟨r, hk, -, h⟩ := s.record_routeUnpinned c k <;> rw [h] at hr'
  · exact ⟨r', hr', rfl, rfl, id⟩
  · obtain rfl := Option.some.inj hr'
    exact ⟨r, hk, rfl, rfl, id⟩

theorem VersionLaw.resetWith (s : State) (b : Bool) : VersionLaw (s.resetWith b) :=
  fun k r h => by simp at h

theorem VersionLaw.of_same (hs : VersionLaw s) (slots : t.slots = s.slots)
    (contents : ∀ c, (t.cell c).content = (s.cell c).content) : VersionLaw t :=
  hs.of_slots slots fun c => by rw [State.sequenceOf, contents]; rfl

/-- Settles O50: a commit writes the next number into a cell that no list holds, and no other move writes one. -/
theorem versionsStayConsecutive : Obligations.VersionsStayConsecutive := by
  intro s t hc hs h
  have same : ∀ s t : State, t.slots = s.slots → t.free = s.free → t.detached = s.detached →
      (∀ c, (t.cell c).content = (s.cell c).content) → CellLaw s ∧ VersionLaw s → CellLaw t ∧ VersionLaw t :=
    fun _ _ slots free detached contents hs => ⟨hs.1.of_same slots free detached, hs.2.of_same slots contents⟩
  have closed : ∀ s k, CellLaw s ∧ VersionLaw s → CellLaw (s.closeOnSlot k) ∧ VersionLaw (s.closeOnSlot k) :=
    fun s k hs => ⟨hs.1.stored (.closeOnSlot s k), hs.2.stored (.closeOnSlot s k) hs.1⟩
  have both : CellLaw t ∧ VersionLaw t :=
    step_keeps (L := fun s => CellLaw s ∧ VersionLaw s) (fun _ _ h => h) (fun s b => ⟨.resetWith s b, .resetWith s b⟩)
      (fun _ _ _ h hs => ⟨hs.1.move h, hs.2.stored h.stored hs.1⟩)
      (fun _ _ _ h hs => h.keeps same closed (fun s c hs => ⟨hs.1.routeUnpinned c, hs.2.routeUnpinned c⟩) hs)
      (fun _ hs => State.grant_keeps same hs) ⟨hc, hs⟩ h
  exact both.2

end Sys2Proof.Machine
end

section
/-! PROOF. Queues stay in bounds, the path stays granted, and the modes keep their law (R53, R70, R101, R104, R160). -/

namespace Sys2Proof.Machine

variable {opens : Prop} {a : Option Port} {p : Port} {s t : State}

/-! ### Queues (R67, R68, R70, R83) -/

/-- The law of a queue reads its entries, its depth, its threshold and its IRQ level. -/
theorem Queue.law.congr {q q' : Queue} (h : q.law) (entries : q'.entries = q.entries) (depth : q'.depth = q.depth)
    (threshold : q'.threshold = q.threshold) (irq : q'.irq = q.irq) : q'.law := by
  simpa [Queue.law, Queue.fill, Queue.newestIsOverflow, entries, depth, threshold, irq] using h

/-- A queue that lost its head keeps its law. -/
theorem Queue.law.pop {q q' : Queue} (h : q.law) (entries : q'.entries = q.entries.tail) (depth : q'.depth = q.depth)
    (threshold : q'.threshold = q.threshold) (irq : q'.irq = q.irq) : q'.law := by
  obtain ⟨hd, ht, htd, hi, hid, hfill, -⟩ := h
  have hd16 := hd.1
  simp only [Queue.fill] at hfill
  refine ⟨by rw [depth]; exact hd, by rw [threshold]; exact ht, by rw [threshold, depth]; exact htd, by rw [irq]; exact hi,
    by rw [irq, depth]; exact hid, ?_, fun e => ?_⟩
  · rw [Queue.fill, entries, depth, List.length_tail]; omega
  · rw [Queue.fill, entries, depth, List.length_tail] at e; omega

theorem Queue.law.touched {u w : PortUnit} (h : u.Touched w) (hu : u.queue.law) : w.queue.law := by
  obtain e | e := h.entries
  · exact hu.congr e h.depth h.threshold h.irq
  · exact hu.pop e h.depth h.threshold h.irq

/-- SET_QUEUE keeps the law: the queue fits in the new depth, and the IRQ level is clamped to it (R68). -/
theorem Queue.law.resized {q : Queue} {d x : Nat} (h : q.law) (hd : legalDepth d = true) (hx : 1 ≤ x ∧ x ≤ d - 1)
    (hf : q.fitsDepth d = true) : (q.resized d x).law := by
  obtain ⟨-, -, -, hi, -, -, -⟩ := h
  simp only [legalDepth, decide_eq_true_eq] at hd
  simp only [Queue.fitsDepth, Bool.or_eq_true, decide_eq_true_eq, Bool.and_eq_true, beq_iff_eq] at hf
  have clamped : 1 ≤ min q.irq.levelAt d ∧ min q.irq.levelAt d ≤ d := by omega
  exact ⟨hd, hx.1, hx.2, clamped.1, clamped.2, by simp only [Queue.fill, Queue.resized]; omega,
    fun e => (hf.resolve_left (by simp only [Queue.fill, Queue.resized] at e; omega)).2⟩

/-- The law of an emptied queue (R82). -/
theorem Queue.law.emptied {q : Queue} (h : q.law) : q.emptied.law := by
  obtain ⟨hd, ht, htd, -, -, -, -⟩ := h
  have hd16 := hd.1
  exact ⟨hd, ht, htd, by simp [Queue.emptied, IrqSettings.default], by simp only [Queue.emptied, IrqSettings.default]; omega,
    by simp [Queue.emptied, Queue.fill], fun e => by simp only [Queue.emptied, Queue.fill, List.length_nil] at e; omega⟩

theorem QueueLaw.of_queues (hs : QueueLaw s) (h : ∀ q, (t.port q).queue = (s.port q).queue) : QueueLaw t :=
  fun q => by rw [h]; exact hs q

/-- A changed port keeps the law of the queues when its own queue does. -/
theorem QueueLaw.updatePort (hs : QueueLaw s) {f : PortUnit → PortUnit}
    (h : (s.port p).queue.law → (f (s.port p)).queue.law) : QueueLaw (s.updatePort p f) := fun q => by
  rw [State.port_updatePort_eq]
  split
  · rename_i e
    subst e
    exact h (hs q)
  · exact hs q

theorem QueueLaw.move (h : Move opens a s t) (hs : QueueLaw s) : QueueLaw t := by
  cases h with
  | touched h => exact hs.updatePort (f := fun _ => _) (.touched h)
  | joined | dozed => exact hs.updatePort fun h => h.congr rfl rfl rfl rfl
  | voted | filtersSet | pointed | grouped => exact hs.updatePort id
  | queueSet _ hd hx hf => exact hs.updatePort fun h => h.resized hd hx hf
  | irqSet hx =>
    refine hs.updatePort fun h => ?_
    obtain ⟨hd, ht, htd, -, -, hfill, hnew⟩ := h
    exact ⟨hd, ht, htd, hx.1, hx.2, hfill, hnew⟩
  | committed _ _ _ _ ht => exact hs.of_queues fun q => by rw [State.commitSlot_port ht]; split <;> rfl
  | closed => exact hs.of_queues fun q => by rw [State.port_closeUpdate]; split <;> rfl
  | opened => exact hs.of_queues fun q => by simp only [State.port_updatePort_eq, State.port_setRecord]; split <;> rfl
  | orphaned => exact hs.of_queues fun q => by simp [State.orphaned]
  | _ => exact hs.of_queues fun q => by simp

theorem QueueLaw.stir (h : Stir a s t) (hs : QueueLaw s) : QueueLaw t := by
  cases h with
  | pushed => exact hs.of_queues fun q => by simp
  | fetched =>
    exact hs.of_queues fun q => by simp only [State.port_updatePort_eq, State.port_pinCell]; split <;> rfl
  | @left p =>
    intro q
    have unit : ((s.leftBy p).port q).queue = ((s.leftUnit p).port q).queue := by simp [State.leftBy_eq]
    rw [unit, State.port_leftUnit]
    split
    · exact (hs q).emptied
    · exact hs q
  | @distributed _ j rest =>
    intro q
    have port : State.port { s.distribute j with jobs := rest, path := none } q = (s.distribute j).port q := by
      cases q <;> rfl
    rw [port, State.port_distribute]
    exact PortUnit.law_receive (hs q) q _ j
  | copied =>
    exact hs.of_queues fun q => by
      simp only [State.port_mk, State.port_unpinCell, State.port_updatePort_eq]; split <;> rfl

theorem QueueLaw.resetWith (s : State) (b : Bool) : QueueLaw (s.resetWith b) := fun q => by
  rw [State.port_resetWith]
  simp [Queue.law, PortUnit.afterReset, PortUnit.reset, Queue.fill, IrqSettings.default]

/-- Settles O53: the decisions of the NQM keep the law of R70, and SET_QUEUE and SET_IRQ check what it needs. -/
theorem queuesStayInBounds : Obligations.QueuesStayInBounds := fun _ _ hs h =>
  step_keeps (fun _ _ h q => by simpa using h q) QueueLaw.resetWith (fun _ _ _ h hs => hs.move h)
    (fun _ _ _ h hs => hs.stir h) (fun _ hs => hs.of_queues fun q => by simp) hs h

/-! ### The transfer path (R53, R101) -/

/-- The bound of the job queue, and that the path is held by one that has a transfer. -/
structure PathHeld (s : State) : Prop where
  jobs : s.jobs.length ≤ 16
  port : ∀ p, s.path = some (.port p) ↔ ∃ c, (s.port p).fetch = .inFlight .copying c
  du : s.path = some .du → s.jobs ≠ []

/-- Nobody waits for a free path. -/
def Settled (s : State) : Prop := s.path = none → ∀ r, s.waits r = false

theorem pathLaw_iff : PathLaw s ↔ PathHeld s ∧ Settled s :=
  ⟨fun ⟨jobs, port, du, free⟩ => ⟨⟨jobs, port, du⟩, free⟩,
    fun ⟨held, free⟩ => ⟨held.jobs, held.port, held.du, free⟩⟩

/-- A fetch that ends READY is in flight no more than before. -/
theorem PortUnit.Touched.inFlight {u w : PortUnit} (h : u.Touched w) (x : CopyPhase) (c : CellNo) :
    w.fetch = .inFlight x c ↔ u.fetch = .inFlight x c := by
  obtain e | ⟨hu, hw⟩ := h.fetch
  · rw [e]
  · simp [hu, hw]

/-- A change of a port that leaves its fetch leaves every fetch. -/
theorem State.fetch_updatePort {f : PortUnit → PortUnit} (h : ∀ u, (f u).fetch = u.fetch) (q : Port) :
    ((s.updatePort p f).port q).fetch = (s.port q).fetch := by
  rw [State.port_updatePort_eq]
  split
  · exact h _
  · rfl

/-- No move changes a fetch in flight. -/
theorem Move.inFlight (h : Move opens a s t) (q : Port) (x : CopyPhase) (c : CellNo) :
    (t.port q).fetch = .inFlight x c ↔ (s.port q).fetch = .inFlight x c := by
  cases h with
  | @touched p _ w h =>
    by_cases e : q = p
    · subst e; simpa using h.inFlight x c
    · simp [e]
  | committed _ _ _ _ ht => rw [State.commitSlot_port ht]; split <;> rfl
  | closed => rw [State.port_closeUpdate]; split <;> rfl
  | opened => simp only [State.port_updatePort_eq, State.port_setRecord]; split <;> rfl
  | orphaned => simp [State.orphaned]
  | joined | dozed | voted | queueSet | filtersSet | irqSet | pointed | grouped =>
    rw [State.fetch_updatePort]
    exact fun _ => rfl
  | _ => simp

/-- No move changes the jobs or the holder of the path. -/
theorem Move.path (h : Move opens a s t) : t.jobs = s.jobs ∧ t.path = s.path := by
  cases h with
  | committed _ _ _ _ ht =>
    obtain ⟨-, -, -, -, -, -, -, -, -, -, jobs, path, -⟩ := State.commitSlot_fields ht
    exact ⟨jobs, path⟩
  | _ => simp

theorem PathHeld.move (h : Move opens a s t) (hs : PathHeld s) : PathHeld t := by
  obtain ⟨jobs, path⟩ := h.path
  exact ⟨by rw [jobs]; exact hs.jobs, fun q => by rw [path, hs.port]; exact exists_congr fun c => (h.inFlight q _ c).symm,
    fun e => by rw [jobs]; exact hs.du (by rw [← path]; exact e)⟩

theorem waits_port {s : State} {q : Port} : s.waits (.port q) = true ↔ ∃ c, (s.port q).fetch = .inFlight .waiting c := by
  cases h : (s.port q).fetch with
  | inFlight x c => cases x <;> simp [State.waits, h]
  | _ => simp [State.waits, h]

theorem Settled.move (h : Move opens a s t) (hs : Settled s) : Settled t := by
  obtain ⟨jobs, path⟩ := h.path
  intro e r
  have before := hs (path ▸ e) r
  cases r with
  | du => simpa [State.waits, jobs, path] using before
  | port q =>
    rw [Bool.eq_false_iff, ne_eq, waits_port] at before ⊢
    simpa only [h.inFlight] using before

theorem PathLaw.moves (h : Relation.ReflTransGen (Move opens a) s t) (hs : PathLaw s) : PathLaw t := by
  induction h with
  | refl => exact hs
  | tail _ h ih =>
    obtain ⟨held, free⟩ := pathLaw_iff.mp ih
    exact pathLaw_iff.mpr ⟨held.move h, free.move h⟩

/-- Only the holder of the path copies. -/
theorem PathHeld.not_copying (hs : PathHeld s) {q : Port} (h : s.path ≠ some (.port q)) (c : CellNo) :
    (s.port q).fetch ≠ .inFlight .copying c := fun e => h ((hs.port q).mpr ⟨c, e⟩)

theorem PathHeld.fetched {k : SlotNo} {c : CellNo} (hs : PathHeld s) (hf : (s.port p).fetch.isInFlight = false) :
    PathHeld ((s.pinCell c).updatePort p fun u => u.fetchTaken k c) := by
  refine ⟨by simpa using hs.jobs, fun q => ?_, fun e => by simpa using hs.du (by simpa using e)⟩
  by_cases e : q = p
  · subst e
    have idle : ¬ s.path = some (.port q) := fun h => by
      obtain ⟨d, hd⟩ := (hs.port q).mp h
      simp [hd, FetchState.isInFlight] at hf
    simp [PortUnit.fetchTaken, idle]
  · simpa [e] using hs.port q

/-- The path after the cancellation of a fetch (R99). -/
theorem State.path_cancelFetch (s : State) (f : FetchState) :
    (s.cancelFetch f).path = if ∃ c, f = .inFlight .copying c then none else s.path := by
  cases f with
  | inFlight x c => cases x <;> simp [State.cancelFetch]
  | _ => simp [State.cancelFetch]

theorem PathHeld.left (hs : PathHeld s) : PathHeld (s.leftBy p) := by
  have path : (s.leftBy p).path = if s.path = some (.port p) then none else s.path := by
    have settled (v : State) : (v.settleLeaving p).path = v.path := by simp
    rw [State.leftBy_eq, settled, State.path_cancelFetch]
    simp only [← hs.port p, State.leftUnit_fields]
  have jobs : (s.leftBy p).jobs = s.jobs := by simp [State.leftBy_eq]
  have fetch : ∀ q, ((s.leftBy p).port q).fetch = if q = p then .idle else (s.port q).fetch := fun q => by
    have unit : ((s.leftBy p).port q).fetch = ((s.leftUnit p).port q).fetch := by simp [State.leftBy_eq]
    rw [unit, State.port_leftUnit]
    split <;> rfl
  refine ⟨by rw [jobs]; exact hs.jobs, fun q => ?_, fun e => ?_⟩
  · rw [path, fetch]
    by_cases hq : q = p
    · subst hq
      by_cases hh : s.path = some (.port q) <;> simp [hh]
    · by_cases hh : s.path = some (.port p)
      · have other : s.path ≠ some (.port q) := by rw [hh]; simp [Ne.symm hq]
        simp [hh, hq, hs.not_copying other]
      · simpa [hh, hq] using hs.port q
  · rw [path] at e
    rw [jobs]
    split at e
    · exact absurd e (by simp)
    · exact hs.du e

theorem PathHeld.stir (h : Stir a s t) (hs : PathHeld s) : PathHeld t := by
  cases h with
  | pushed hr =>
    have room : s.jobs.length < 16 := of_decide_eq_true hr
    exact ⟨by simp only [List.length_append, List.length_singleton]; omega, fun q => by simpa using hs.port q,
      fun _ => by simp⟩
  | fetched _ _ _ _ hf => exact hs.fetched hf
  | left => exact hs.left
  | @distributed _ j rest hp hj =>
    have jobs := hs.jobs
    rw [hj, List.length_cons] at jobs
    refine ⟨by simp only; omega, fun q => ?_, fun e => absurd e (by simp)⟩
    simp [hs.not_copying (q := q) (by simp [hp])]
  | @copied p c _ hp hf =>
    refine ⟨by simpa using hs.jobs, fun q => ?_, fun e => absurd e (by simp)⟩
    rw [State.port_mk, State.port_unpinCell, State.port_updatePort_eq]
    by_cases hq : q = p
    · simp [hq, PortUnit.delivered]
    · have other : s.path ≠ some (.port q) := by rw [hp]; simp [Ne.symm hq]
      simp [hq, hs.not_copying other]

theorem PathHeld.grant (hs : PathHeld s) : PathHeld s.grant := by
  obtain h | ⟨r, hp, hw, h⟩ := s.grant_cases <;> rw [h]
  · exact hs
  · refine ⟨by simpa using hs.jobs, fun q => ?_, fun e => ?_⟩
    · rw [(s.grantTo_path r).1, State.port_grantTo]
      have free : ∀ c, (s.port q).fetch ≠ .inFlight .copying c := hs.not_copying (by simp [hp])
      by_cases hr : r = .port q
      · subst hr
        obtain ⟨c, hc⟩ := waits_port.mp hw
        simp [hc, FetchState.granted]
      · simp [hr, free]
    · obtain rfl : r = .du := by simpa using e
      have waits : s.jobs ≠ [] := by
        intro e
        simp [State.waits, e] at hw
      simpa using waits

theorem settled_grant (s : State) : Settled s.grant := by
  intro e r
  have free := State.grant_path_none e
  obtain h | ⟨x, -, hx, -⟩ := s.grant_cases
  · rw [h]; exact free r
  · exact absurd (free x) (by simp [hx])

/-- Every act keeps the holder of the path one that has a transfer. -/
theorem PathHeld.acts (h : Relation.ReflTransGen (Act opens a) s t) (hs : PathHeld s) : PathHeld t := by
  induction h with
  | refl => exact hs
  | tail _ h ih =>
    cases h with
    | move h => exact ih.move h
    | stir h => exact ih.stir h
    | grant => exact ih.grant

/-- The law of the path holds after a grant, and the moves after it leave the path alone. -/
theorem PathLaw.effect (h : Effect opens a s t) (hs : PathLaw s) : PathLaw t := by
  cases h with
  | calm h => exact hs.moves h
  | granted u h h' =>
    have held := (pathLaw_iff.mp hs).1.acts h
    exact (pathLaw_iff.mpr ⟨held.grant, settled_grant u⟩).moves h'

/-- After a reset nobody has a transfer. -/
theorem PathLaw.resetWith (s : State) (b : Bool) : PathLaw (s.resetWith b) := by
  obtain ⟨-, -, jobs, path, -⟩ := s.resetWith_fields b
  refine ⟨by simp [jobs], fun q => ?_, fun e => by simp [path] at e, fun _ r => ?_⟩
  · simp [path, PortUnit.afterReset, PortUnit.reset]
  · cases r with
    | du => simp [State.waits, jobs]
    | port q => simp [State.waits, PortUnit.afterReset, PortUnit.reset]

theorem PathLaw.withPending (hs : PathLaw s) (l : List Instr) : PathLaw { s with pending := l } := hs

/-- Settles O54: whatever frees the path or asks for it is followed by a grant. -/
theorem pathStaysGranted : Obligations.PathStaysGranted := fun s t hs h => by
  obtain ⟨l, ⟨a, h⟩ | ⟨b, rfl⟩⟩ := step_cases h
  · exact (hs.withPending l).effect h
  · exact .resetWith _ b

/-! ### Modes (R104, R105, R109, R151, R160) -/

/-- What holds in SETUP (R104, R105, R109, R151). -/
structure SetupLaw (s : State) : Prop where
  clocks : s.etc = 0 ∧ s.prescaler = 0 ∧ s.scan = 0
  records : ∀ k, s.record k = none
  entries : ∀ i, s.entry i = none
  jobs : ∀ j ∈ s.jobs, j.aboutNoSlot = true
  ports : ∀ p, (s.port p).state ≠ .doze ∧ (s.port p).fetch.pinned = none

/-- What holds in RUN (R105, R160). -/
structure RunLaw (s : State) : Prop where
  prescaler : s.prescaler < s.tickPeriod.cycles
  votes : ∀ p, (s.port p).vote = false

theorem modeLaw_iff : ModeLaw s ↔ (s.mode = .setup → SetupLaw s) ∧ (s.mode = .run → RunLaw s) := by
  cases h : s.mode with
  | setup =>
    simp only [ModeLaw, h, forall_const, reduceCtorEq, false_implies, and_true]
    exact ⟨fun ⟨etc, prescaler, scan, records, entries, jobs, ports⟩ =>
      ⟨⟨etc, prescaler, scan⟩, records, entries, jobs, ports⟩,
      fun ⟨⟨etc, prescaler, scan⟩, records, entries, jobs, ports⟩ =>
      ⟨etc, prescaler, scan, records, entries, jobs, ports⟩⟩
  | run =>
    simp only [ModeLaw, h, forall_const, reduceCtorEq, false_implies, true_and]
    exact ⟨fun ⟨prescaler, votes⟩ => ⟨prescaler, votes⟩, fun ⟨prescaler, votes⟩ => ⟨prescaler, votes⟩⟩

theorem ModeLaw.of_setup (hm : t.mode = .setup) (h : SetupLaw t) : ModeLaw t :=
  modeLaw_iff.mpr ⟨fun _ => h, fun e => by simp [hm] at e⟩

theorem ModeLaw.of_run (hm : t.mode = .run) (h : RunLaw t) : ModeLaw t :=
  modeLaw_iff.mpr ⟨fun e => by simp [hm] at e, fun _ => h⟩

/-- The number of CLKIN cycles per tick is not 0 (R105). -/
theorem TickPeriod.cycles_pos (x : TickPeriod) : 0 < x.cycles := by
  cases x <;> decide

/-- A move from RUN that changes neither the prescaler nor the tick period needs its votes looked at. -/
theorem RunLaw.of_clock (hs : RunLaw s) (prescaler : t.prescaler = s.prescaler) (period : t.tickPeriod = s.tickPeriod)
    (votes : ∀ q, (t.port q).vote = true → (s.port q).vote = true) : RunLaw t :=
  ⟨by rw [prescaler, period]; exact hs.prescaler, fun q => Bool.eq_false_iff.mpr fun e => by
    have := votes q e
    simp [hs.votes q] at this⟩

/-- A changed port votes only if it voted before. -/
theorem State.vote_updatePort {f : PortUnit → PortUnit} (h : ∀ u, (f u).vote = true → u.vote = true) (q : Port)
    (e : ((s.updatePort p f).port q).vote = true) : (s.port q).vote = true := by
  rw [State.port_updatePort_eq] at e
  split at e
  · exact h _ e
  · exact e

theorem RunLaw.updatePort (hs : RunLaw s) {f : PortUnit → PortUnit} (h : ∀ u, (f u).vote = true → u.vote = true) :
    RunLaw (s.updatePort p f) :=
  hs.of_clock (by simp) (by simp) (State.vote_updatePort h)

theorem RunLaw.move (h : Move opens a s t) (hm : s.mode = .run) (hs : RunLaw s) : RunLaw t := by
  cases h with
  | touched h => exact hs.updatePort (f := fun _ => _) fun u e => by simp [h.vote, hs.votes] at e
  | joined => exact hs.updatePort fun u e => by simp [PortUnit.joined] at e
  | dozed | queueSet | filtersSet | irqSet | pointed | grouped => exact hs.updatePort fun _ e => e
  | voted _ hm' | running hm' | exchangeSet hm' | generationRaised hm' => simp [hm] at hm'
  | committed _ _ _ _ ht =>
    obtain ⟨-, -, -, -, period, -, -, -, -, -, -, -, -, -, prescaler, -⟩ := State.commitSlot_fields ht
    exact hs.of_clock prescaler period fun q e => by rw [State.commitSlot_port ht] at e; split at e <;> exact e
  | closed => exact hs.of_clock (by simp) (by simp) fun q e => by rw [State.port_closeUpdate] at e; split at e <;> exact e
  | opened =>
    refine RunLaw.updatePort (s := s.setRecord _ _) ?_ fun _ e => e
    exact hs.of_clock (by simp) (by simp) fun q e => by simpa using e
  | ticked => exact ⟨TickPeriod.cycles_pos _, fun q => by simpa using hs.votes q⟩
  | counted _ hc => exact ⟨hc, fun q => by simpa using hs.votes q⟩
  | orphaned => exact hs.of_clock (by simp) (by simp) fun q e => by simpa [State.orphaned] using e
  | _ => exact hs.of_clock (by simp) (by simp) fun q e => by simpa using e

/-- A port's state and pinned fetch stay fit for SETUP when the port changes to a unit that does. -/
theorem SetupLaw.updatePort (hs : SetupLaw s) {f : PortUnit → PortUnit}
    (state : ∀ u, u = s.port p → u.state ≠ .doze → (f u).state ≠ .doze)
    (fetch : ∀ u, u = s.port p → (f u).fetch.pinned = u.fetch.pinned) : SetupLaw (s.updatePort p f) where
  clocks := by simpa using hs.clocks
  records k := by simpa using hs.records k
  entries i := by simpa using hs.entries i
  jobs := by simpa using hs.jobs
  ports q := by
    rw [State.port_updatePort_eq]
    split
    · rename_i e
      subst e
      exact ⟨state _ rfl (hs.ports q).1, by rw [fetch _ rfl]; exact (hs.ports q).2⟩
    · exact hs.ports q

/-- In SETUP a move stays in SETUP and keeps its law, or is the move to RUN. -/
theorem SetupLaw.move (h : Move opens a s t) (hm : s.mode = .setup) (hs : SetupLaw s) :
    t = s.running ∨ t.mode = .setup ∧ SetupLaw t := by
  cases h with
  | @touched p _ w h =>
    refine .inr ⟨by simpa using hm, hs.updatePort (f := fun _ => w) (fun u e hu => ?_) fun u e => by rw [e, h.pinned]⟩
    subst e
    obtain ⟨state, -⟩ | ⟨state, -⟩ := h.state
    · rw [state]; exact hu
    · exact absurd state hu
  | running => exact .inl rfl
  | joined => exact .inr ⟨by simpa using hm, hs.updatePort (fun _ _ _ => by simp [PortUnit.joined]) fun _ _ => rfl⟩
  | voted | queueSet | filtersSet | irqSet | grouped =>
    exact .inr ⟨by simpa using hm, hs.updatePort (fun _ _ h => h) fun _ _ => rfl⟩
  | exchangeSet | generationRaised | pins =>
    exact .inr ⟨by simpa using hm, by simpa using hs.clocks, fun k => by simpa [State.record, State.slot] using hs.records k,
      fun i => by simpa [State.entry] using hs.entries i, by simpa using hs.jobs, fun q => by simpa using hs.ports q⟩
  | entriesLost hv =>
    refine .inr ⟨by simpa using hm, by simpa using hs.clocks, fun k => by simpa [State.record, State.slot] using hs.records k,
      fun i => ?_, by simpa using hs.jobs, fun q => by simpa using hs.ports q⟩
    obtain e | e := hv i
    · exact e
    · exact e.trans (hs.entries i)
  | dozed _ hm' | claimed _ hm' | ticked hm' | counted hm' | scanned hm' => simp [hm] at hm'
  | closed _ _ hk | freed _ hk | adopted _ _ hk | opened _ _ hk | pointed hk | committed _ _ hk | watched _ hk
  | staged hk | overrun hk | entered _ _ hk | lapsed _ hk | orphaned _ hk => simp [hs.records] at hk

theorem ModeLaw.move (h : Move opens a s t) (hs : ModeLaw s) : ModeLaw t := by
  obtain ⟨setup, run⟩ := modeLaw_iff.mp hs
  cases hm : s.mode with
  | setup =>
    obtain rfl | ⟨hm', h⟩ := (setup hm).move h hm
    · exact .of_run rfl ⟨TickPeriod.cycles_pos _, fun q => by simp⟩
    · exact .of_setup hm' h
  | run =>
    have mode : t.mode = .run := by
      cases h with
      | voted _ hm' | running hm' | exchangeSet hm' | generationRaised hm' => simp [hm] at hm'
      | committed _ _ _ _ ht =>
        obtain ⟨-, -, -, mode, -⟩ := State.commitSlot_fields ht
        exact mode.trans hm
      | _ => simpa using hm
    exact .of_run mode ((run hm).move h hm)

/-- Nothing that calls for a grant changes the mode or the clocks. -/
theorem Stir.clocks (h : Stir a s t) : t.mode = s.mode ∧ t.etc = s.etc ∧ t.prescaler = s.prescaler ∧ t.scan = s.scan ∧
    t.tickPeriod = s.tickPeriod := by
  cases h <;> simp [State.leftBy_eq]

/-- Nothing that calls for a grant adds a vote. -/
theorem Stir.vote (h : Stir a s t) (q : Port) (e : (t.port q).vote = true) : (s.port q).vote = true := by
  cases h with
  | pushed => simpa using e
  | fetched => exact State.vote_updatePort (f := fun u => u.fetchTaken _ _) (fun _ e => e) q (by simpa [State.port_updatePort_eq] using e)
  | @left p =>
    have unit : ((s.leftBy p).port q).vote = ((s.leftUnit p).port q).vote := by simp [State.leftBy_eq]
    rw [unit, State.port_leftUnit] at e
    split at e
    · simp [PortUnit.left] at e
    · exact e
  | distributed => simpa using e
  | copied => exact State.vote_updatePort (f := fun u => u.delivered _) (fun _ e => e) q (by simpa [State.port_updatePort_eq] using e)

/-- No cell is unpinned when none is pinned. -/
theorem State.cancelFetch_of_unpinned {f : FetchState} (h : f.pinned = none) : s.cancelFetch f = s := by
  cases f with
  | inFlight x c => simp [FetchState.pinned] at h
  | idle => rfl
  | ready => rfl

theorem SetupLaw.stir (h : Stir a s t) (hm : s.mode = .setup) (hs : SetupLaw s) : SetupLaw t := by
  have clocks : t.etc = 0 ∧ t.prescaler = 0 ∧ t.scan = 0 := by
    obtain ⟨-, etc, prescaler, scan, -⟩ := h.clocks
    rw [etc, prescaler, scan]
    exact hs.clocks
  cases h with
  | @pushed _ _ j _ hj =>
    refine ⟨clocks, hs.records, hs.entries, ?_, fun q => by simpa using hs.ports q⟩
    have about : j.aboutNoSlot = true := by
      obtain hr | hj | ⟨k, hk⟩ := hj
      · simp [hm] at hr
      · exact hj
      · exact absurd (hs.records k) hk
    simpa [or_imp, forall_and, about] using hs.jobs
  | fetched _ hm' => simp [hm] at hm'
  | @left p =>
    have left : s.leftBy p = (s.leftUnit p).settleLeaving p := by
      rw [State.leftBy_eq, State.cancelFetch_of_unpinned (hs.ports p).2]
    rw [left] at clocks ⊢
    refine ⟨clocks, fun k => by simp [hs.records], fun i => by simp [hs.entries], by simpa using hs.jobs, fun q => ?_⟩
    rw [State.port_settleLeaving, State.port_leftUnit]
    by_cases e : q = p
    · simp only [e, if_true, true_and]
      exact ⟨by split <;> simp [PortUnit.left], rfl⟩
    · simpa [e] using hs.ports q
  | @distributed _ j rest _ hj =>
    have tail : ∀ x ∈ rest, x.aboutNoSlot = true := fun x hx => hs.jobs x (by simp [hj, hx])
    exact ⟨clocks, hs.records, hs.entries, tail, fun q => by simpa using hs.ports q⟩
  | @copied p c _ _ hf =>
    have := (hs.ports p).2
    simp [hf, FetchState.pinned] at this

theorem ModeLaw.stir (h : Stir a s t) (hs : ModeLaw s) : ModeLaw t := by
  obtain ⟨mode, -, prescaler, -, period⟩ := h.clocks
  obtain ⟨setup, run⟩ := modeLaw_iff.mp hs
  exact modeLaw_iff.mpr ⟨fun e => (setup (mode ▸ e)).stir h (mode ▸ e),
    fun e => (run (mode ▸ e)).of_clock prescaler period h.vote⟩

theorem ModeLaw.grant (hs : ModeLaw s) : ModeLaw s.grant := by
  obtain ⟨setup, run⟩ := modeLaw_iff.mp hs
  refine modeLaw_iff.mpr ⟨fun e => ?_, fun e => ?_⟩
  · obtain ⟨clocks, records, entries, jobs, ports⟩ := setup (by simpa using e)
    exact ⟨by simpa using clocks, fun k => by simpa using records k, fun i => by simpa using entries i,
      by simpa using jobs, fun q => by simpa [State.pinned_grant] using ports q⟩
  · exact (run (by simpa using e)).of_clock (by simp) (by simp) fun q e => by simpa using e

theorem ModeLaw.resetWith (s : State) (b : Bool) : ModeLaw (s.resetWith b) := by
  obtain ⟨-, -, jobs, -, mode, etc, prescaler, scan⟩ := s.resetWith_fields b
  refine .of_setup mode ⟨⟨etc, prescaler, scan⟩, fun k => by simp, fun i => by simp, by simp [jobs], fun q => ?_⟩
  rw [State.port_resetWith]
  exact ⟨by simp [PortUnit.afterReset, PortUnit.reset], rfl⟩

/-- Settles O57: a move in SETUP finds no record, and no move in RUN casts a vote. -/
theorem modesKeepTheirLaw : Obligations.ModesKeepTheirLaw := fun _ _ hs h =>
  step_keeps (fun s l h => by
      obtain ⟨setup, run⟩ := modeLaw_iff.mp h
      exact modeLaw_iff.mpr ⟨fun e => ⟨(setup e).clocks, (setup e).records, (setup e).entries, (setup e).jobs,
        (setup e).ports⟩, fun e => ⟨(run e).prescaler, (run e).votes⟩⟩)
    ModeLaw.resetWith (fun _ _ _ h hs => hs.move h) (fun _ _ _ h hs => hs.stir h) (fun _ hs => hs.grant) hs h

end Sys2Proof.Machine
end

section
/-! PROOF. Open lists and open updates keep agreeing (R27, R28, R36, R156). -/

namespace Sys2Proof.Machine

variable {opens : Prop} {a : Option Port} {p : Port} {s t : State}

/-! ### The law by slot and port -/

/-- The open update of a slot, if it has one (R28). -/
def State.updateOf (s : State) (k : SlotNo) : Option Update := (s.record k).bind Record.openUpdate

theorem State.updateOf_of_record {k : SlotNo} {r : Record} (h : s.record k = some r) :
    s.updateOf k = r.openUpdate := by
  simp [State.updateOf, h]

theorem State.producer_of_record {k : SlotNo} {r : Record} (h : s.record k = some r) : s.producer k = r.producer := by
  simp [State.producer, h]

theorem State.updateOf_congr {k : SlotNo} (h : t.record k = s.record k) : t.updateOf k = s.updateOf k := by
  simp [State.updateOf, h]

theorem State.producer_congr {k : SlotNo} (h : t.record k = s.record k) : t.producer k = s.producer k := by
  simp [State.producer, h]

/-- A slot with a producer is not FREE. -/
theorem State.producer_eq_some {k : SlotNo} {q : Port} :
    s.producer k = some q ↔ ∃ r, s.record k = some r ∧ r.producer = some q := by
  cases h : s.record k <;> simp [State.producer, h]

/-- A slot with an open update is not FREE. -/
theorem State.updateOf_eq_some {k : SlotNo} {u : Update} :
    s.updateOf k = some u ↔ ∃ r, s.record k = some r ∧ r.openUpdate = some u := by
  simp [State.updateOf, Option.bind_eq_some_iff]

/-- What the law of the updates says of one port (R27). -/
structure PortListed (s : State) (p : Port) : Prop where
  nodup : (s.port p).openList.Nodup
  length : (s.port p).openList.length ≤ 8
  pointer : ∀ k, (s.port p).stagingPointer = some k → k ∈ (s.port p).openList
  opened : ∀ k ∈ (s.port p).openList, (s.updateOf k).isSome = true ∧ s.producer k = some p
  joined : ¬ s.Joined p → (s.port p).openList = []

/-- What it says of one slot (R28). -/
def SlotListed (s : State) (k : SlotNo) : Prop :=
  ∀ u, s.updateOf k = some u → u.length ≤ 32 ∧ ∃ p, s.producer k = some p ∧ k ∈ (s.port p).openList

theorem updateLaw_iff : UpdateLaw s ↔ (∀ p, PortListed s p) ∧ ∀ k, SlotListed s k := by
  have opened : ∀ p k, (∃ r, s.record k = some r ∧ r.openUpdate.isSome = true ∧ r.producer = some p) ↔
      (s.updateOf k).isSome = true ∧ s.producer k = some p := fun p k => by
    cases h : s.record k <;> simp [State.updateOf, State.producer, h]
  refine and_congr (forall_congr' fun p => ?_) (forall_congr' fun k => ?_)
  · simp only [opened]
    exact ⟨fun ⟨a, b, c, d, e⟩ => ⟨a, b, c, d, e⟩, fun ⟨a, b, c, d, e⟩ => ⟨a, b, c, d, e⟩⟩
  · cases h : s.record k with
    | none => simp [SlotListed, State.updateOf, h]
    | some r =>
      simp only [SlotListed, State.updateOf, State.producer, h, Option.bind_some, Option.some.injEq]
      exact ⟨fun hr u => hr r u rfl, fun hr _ u e => e ▸ hr u⟩

theorem UpdateLaw.port (hs : UpdateLaw s) (p : Port) : PortListed s p := (updateLaw_iff.mp hs).1 p

theorem UpdateLaw.slot (hs : UpdateLaw s) (k : SlotNo) : SlotListed s k := (updateLaw_iff.mp hs).2 k

/-- An open update stands in its producer's list. -/
theorem UpdateLaw.mem_openList (hs : UpdateLaw s) {k : SlotNo} (h : (s.updateOf k).isSome = true)
    (hp : s.producer k = some p) : k ∈ (s.port p).openList := by
  obtain ⟨u, hu⟩ := Option.isSome_iff_exists.mp h
  obtain ⟨-, q, hq, hk⟩ := hs.slot k u hu
  obtain rfl := Option.some.inj (hq.symm.trans hp)
  exact hk

/-- A slot that no port lists has no open update. -/
theorem UpdateLaw.updateOf_eq_none (hs : UpdateLaw s) {k : SlotNo}
    (h : ∀ q, s.producer k = some q → k ∉ (s.port q).openList) : s.updateOf k = none := by
  refine Option.eq_none_iff_forall_ne_some.mpr fun u hu => ?_
  obtain ⟨-, q, hq, hk⟩ := hs.slot k u hu
  exact h q hq hk

/-! ### What keeps the law -/

/-- The law stands where every list is as it was, and so is every slot that has an open update before or after, but for
what is staged (R32, R34). -/
theorem UpdateLaw.of_frame (hs : UpdateLaw s)
    (before : ∀ k, (s.updateOf k).isSome = true → (t.updateOf k).isSome = true ∧ t.producer k = s.producer k)
    (after : ∀ k u, t.updateOf k = some u → ∃ x, s.updateOf k = some x ∧ (x.length ≤ 32 → u.length ≤ 32))
    (list : ∀ q, (t.port q).openList = (s.port q).openList)
    (pointer : ∀ q k, (t.port q).stagingPointer = some k →
      (s.port q).stagingPointer = some k ∨ k ∈ (s.port q).openList)
    (joined : ∀ q, s.Joined q → t.Joined q) : UpdateLaw t := by
  refine updateLaw_iff.mpr ⟨fun q => ?_, fun k u hu => ?_⟩
  · obtain ⟨nodup, length, pointed, opened, closed⟩ := hs.port q
    refine ⟨by rwa [list], by rwa [list], fun k h => ?_, fun k h => ?_, fun h => ?_⟩
    · rw [list]
      exact (pointer q k h).elim (pointed k) id
    · rw [list] at h
      obtain ⟨isOpen, mine⟩ := opened k h
      obtain ⟨isOpen', same⟩ := before k isOpen
      exact ⟨isOpen', same.trans mine⟩
    · rw [list]
      exact closed (mt (joined q) h)
  · obtain ⟨x, hx, length⟩ := after k u hu
    obtain ⟨hlen, q, hq, hk⟩ := hs.slot k x hx
    exact ⟨length hlen, q, by rw [(before k (by simp [hx])).2, hq], by rwa [list]⟩

/-- The law reads of the state only the records, the lists, the pointers and who has joined. -/
theorem UpdateLaw.of_same (hs : UpdateLaw s) (record : ∀ k, t.record k = s.record k)
    (list : ∀ q, (t.port q).openList = (s.port q).openList)
    (pointer : ∀ q, (t.port q).stagingPointer = (s.port q).stagingPointer)
    (joined : ∀ q, s.Joined q → t.Joined q) : UpdateLaw t :=
  hs.of_frame (fun k h => ⟨by rwa [State.updateOf_congr (record k)], State.producer_congr (record k)⟩)
    (fun k u h => ⟨u, by rwa [State.updateOf_congr (record k)] at h, id⟩) list
    (fun q k h => .inl (by rwa [pointer] at h)) joined

/-- A port changed, with its list and its pointer kept. -/
theorem UpdateLaw.updatePort (hs : UpdateLaw s) {f : PortUnit → PortUnit}
    (list : (f (s.port p)).openList = (s.port p).openList)
    (pointer : (f (s.port p)).stagingPointer = (s.port p).stagingPointer)
    (joined : s.Joined p → (f (s.port p)).state = .active ∨ (f (s.port p)).state = .doze) :
    UpdateLaw (s.updatePort p f) := by
  have unit : ∀ q, q = p ∧ (s.updatePort p f).port q = f (s.port p) ∨ (s.updatePort p f).port q = s.port q := fun q => by
    by_cases e : q = p
    · subst e; exact .inl ⟨rfl, by simp⟩
    · exact .inr (by simp [e])
  refine hs.of_same (fun k => by simp) (fun q => ?_) (fun q => ?_) fun q hq => ?_
  · obtain ⟨rfl, e⟩ | e := unit q <;> rw [e]
    exact list
  · obtain ⟨rfl, e⟩ | e := unit q <;> rw [e]
    exact pointer
  · obtain ⟨rfl, e⟩ | e := unit q <;> rw [State.Joined, e]
    · exact joined hq
    · exact hq

/-- One slot changed that has no open update before or after. -/
theorem UpdateLaw.of_unlisted (hs : UpdateLaw s) {k : SlotNo} (record : ∀ j, j ≠ k → t.record j = s.record j)
    (before : s.updateOf k = none) (after : t.updateOf k = none)
    (port : ∀ q, (t.port q).openList = (s.port q).openList ∧ (t.port q).stagingPointer = (s.port q).stagingPointer ∧
      (s.Joined q → t.Joined q)) : UpdateLaw t := by
  refine hs.of_frame (fun j h => ?_) (fun j u h => ?_) (fun q => (port q).1) (fun q j h => ?_) fun q => (port q).2.2
  · have other : j ≠ k := by rintro rfl; simp [before] at h
    exact ⟨by rwa [State.updateOf_congr (record j other)], State.producer_congr (record j other)⟩
  · have other : j ≠ k := by rintro rfl; simp [after] at h
    exact ⟨u, by rwa [State.updateOf_congr (record j other)] at h, id⟩
  · rw [(port q).2.1] at h
    exact .inl h

/-- The updates of some slots of one port closed (R36, R156). -/
theorem UpdateLaw.of_closed (hs : UpdateLaw s) {D : SlotNo → Bool}
    (mine : ∀ k, D k = true → (s.updateOf k).isSome = true → s.producer k = some p)
    (update : ∀ k, t.updateOf k = if D k then none else s.updateOf k)
    (producer : ∀ k, D k = false → t.producer k = s.producer k)
    (list : (t.port p).openList = (s.port p).openList.filter fun k => !D k)
    (pointer : ∀ k, (t.port p).stagingPointer = some k → D k = false ∧ (s.port p).stagingPointer = some k)
    (joined : s.Joined p → t.Joined p ∨ (t.port p).openList = [])
    (others : ∀ q, q ≠ p → (t.port q).openList = (s.port q).openList ∧
      (t.port q).stagingPointer = (s.port q).stagingPointer ∧ (s.Joined q → t.Joined q)) : UpdateLaw t := by
  refine updateLaw_iff.mpr ⟨fun q => ?_, fun k u hu => ?_⟩
  · obtain ⟨nodup, length, pointed, opened, closed⟩ := hs.port q
    by_cases e : q = p
    · subst e
      refine ⟨by rw [list]; exact nodup.filter _, by rw [list]; exact (List.length_filter_le _ _).trans length,
        fun k h => ?_, fun k h => ?_, fun h => ?_⟩
      · obtain ⟨kept, h⟩ := pointer k h
        rw [list]
        simp [pointed k h, kept]
      · rw [list, List.mem_filter, Bool.not_eq_true'] at h
        obtain ⟨isOpen, mine⟩ := opened k h.1
        exact ⟨by simpa [update, h.2] using isOpen, by rw [producer k h.2, mine]⟩
      · by_cases hq : s.Joined q
        · exact (joined hq).resolve_left h
        · rw [list, closed hq, List.filter_nil]
    · obtain ⟨list, pointer, joined⟩ := others q e
      refine ⟨by rwa [list], by rwa [list], fun k h => ?_, fun k h => ?_, fun h => ?_⟩
      · rw [list]
        exact pointed k (by rwa [pointer] at h)
      · rw [list] at h
        obtain ⟨isOpen, his⟩ := opened k h
        have kept : D k = false := Bool.eq_false_iff.mpr fun hD =>
          e (Option.some.inj (his.symm.trans (mine k hD isOpen)))
        exact ⟨by simpa [update, kept] using isOpen, by rw [producer k kept, his]⟩
      · rw [list]
        exact closed (mt joined h)
  · rw [update] at hu
    cases hD : D k with
    | true => simp [hD] at hu
    | false =>
      obtain ⟨length, q, hq, hk⟩ := hs.slot k u (by simpa [hD] using hu)
      refine ⟨length, q, by rw [producer k hD, hq], ?_⟩
      by_cases e : q = p
      · subst e
        rw [list]
        simp [hk, hD]
      · rwa [(others q e).1]

/-! ### The moves -/

/-- An orphan has no producer (R1). -/
theorem Record.producer_of_isOrphan {r : Record} (h : r.isOrphan = true) : r.producer = none := by
  cases e : r.life <;> simp [Record.isOrphan, Record.producer, e] at h ⊢

theorem Record.openUpdate_of_staging {r : Record} {c : CellNo} {u : Option Update} (h : r.next = .staging c u) :
    r.openUpdate = u := by
  simp [Record.openUpdate, h]

/-- A closed record has no open update. -/
theorem State.updateOf_closeUpdate (s : State) (p : Port) (k j : SlotNo) :
    (s.closeUpdate p k).updateOf j = if j == k then none else s.updateOf j := by
  rw [State.updateOf, State.record_closeUpdate]
  by_cases e : j = k
  · subst e
    cases h : s.record j <;> simp
  · simp [e, State.updateOf]

theorem State.producer_closeUpdate (s : State) (p : Port) (k j : SlotNo) :
    (s.closeUpdate p k).producer j = s.producer j := by
  rw [State.producer, State.producer, State.record_closeUpdate]
  by_cases e : j = k
  · cases s.record j <;> simp [e]
  · simp only [e, if_false]

/-- The unit of a port that drops a slot from its list, in the words of the law (R36). -/
theorem PortUnit.dropOpen_pointer {u : PortUnit} {k j : SlotNo} (h : (u.dropOpen k).stagingPointer = some j) :
    (j == k) = false ∧ u.stagingPointer = some j := by
  simp only [PortUnit.dropOpen] at h
  split at h
  · exact absurd h (by simp)
  · rename_i hne
    exact ⟨by rw [beq_eq_false_iff_ne]; rintro rfl; exact hne h, h⟩

/-- A slot of port `p` leaves its list with its update (R36, R39). -/
theorem UpdateLaw.dropped (hs : UpdateLaw s) {k : SlotNo} (hp : s.producer k = some p)
    (update : ∀ j, t.updateOf j = if j == k then none else s.updateOf j)
    (producer : ∀ j, j ≠ k → t.producer j = s.producer j)
    (port : ∀ q, t.port q = if q = p then (s.port q).dropOpen k else s.port q) : UpdateLaw t := by
  have mine : t.port p = (s.port p).dropOpen k := by simp [port]
  refine hs.of_closed (p := p) (D := fun j => j == k) (fun j hj _ => ?_) update
    (fun j hj => producer j (by simpa using hj)) ?_ (fun j h => ?_) (fun h => .inl ?_) fun q hq => ?_
  · rw [beq_iff_eq] at hj
    exact hj ▸ hp
  · rw [mine]
    exact List.filter_congr fun j _ => rfl
  · rw [mine] at h
    exact PortUnit.dropOpen_pointer h
  · rw [State.Joined, mine]
    exact h
  · have same : t.port q = s.port q := by simp [port, hq]
    rw [State.Joined, State.Joined, same]
    exact ⟨rfl, rfl, id⟩

theorem UpdateLaw.commitSlot (hs : UpdateLaw s) {now : Time} {tag : Option GroupTag} {k : SlotNo} {m : Published}
    (hp : s.producer k = some p) (h : s.commitSlot p now tag k = some (t, m)) : UpdateLaw t := by
  have others := (State.commitSlot_others h).1
  refine hs.dropped hp (fun j => ?_) (fun j e => State.producer_congr (others j e)) (State.commitSlot_port h)
  by_cases e : j = k
  · subst e
    have closed := State.updateClosed_commitSlot h (.inl rfl)
    simp only [beq_self_eq_true, if_true]
    exact Option.eq_none_iff_forall_ne_some.mpr fun u hu => by
      obtain ⟨r, hr, hu⟩ := State.updateOf_eq_some.mp hu
      simp [closed r hr] at hu
  · simpa [e] using State.updateOf_congr (others j e)

/-- OPEN_UPDATE appends a slot that no port lists (R30). -/
theorem UpdateLaw.opened (hs : UpdateLaw s) {k : SlotNo} {r : Record} {c : CellNo}
    (ha : (s.port p).state = .active) (hk : s.record k = some r) (hp : r.producer = some p)
    (hc : r.next = .staging c none) (hl : (s.port p).openList.length < 8) :
    UpdateLaw ((s.setRecord k (some (r.withUpdate c { length := 0, overrun := false }))).updatePort p fun u =>
      { u with openList := u.openList ++ [k], stagingPointer := some k }) := by
  generalize ht : State.updatePort _ p _ = t
  have closed : s.updateOf k = none := by rw [State.updateOf_of_record hk, Record.openUpdate_of_staging hc]
  have mine : t.port p = { s.port p with openList := (s.port p).openList ++ [k], stagingPointer := some k } := by
    subst ht; simp
  have unit : ∀ q, q ≠ p → t.port q = s.port q := fun q hq => by subst ht; simp [hq]
  have atk : t.record k = some (r.withUpdate c { length := 0, overrun := false }) := by subst ht; simp
  have record : ∀ j, j ≠ k → t.record j = s.record j := fun j hj => by subst ht; simp [hj]
  have producer : t.producer k = some p := by rw [State.producer_of_record atk]; exact hp
  have update : t.updateOf k = some { length := 0, overrun := false } := by rw [State.updateOf_of_record atk]; rfl
  have unlisted : ∀ q, k ∉ (s.port q).openList := fun q hq => by
    have := ((hs.port q).opened k hq).1
    simp [closed] at this
  have still : ∀ q, ∀ j ∈ (s.port q).openList, (t.updateOf j).isSome = true ∧ t.producer j = some q := fun q j hj => by
    have other : j ≠ k := by rintro rfl; exact unlisted q hj
    rw [State.updateOf_congr (record j other), State.producer_congr (record j other)]
    exact (hs.port q).opened j hj
  refine updateLaw_iff.mpr ⟨fun q => ?_, fun j u hu => ?_⟩
  · obtain ⟨nodup, length, pointed, opened, notJoined⟩ := hs.port q
    by_cases e : q = p
    · subst e
      refine ⟨?_, ?_, fun j h => ?_, fun j h => ?_, fun h => absurd (.inl (by rw [mine]; exact ha)) h⟩ <;>
        rw [mine] at *
      · exact List.nodup_append'.mpr ⟨nodup, List.nodup_singleton k, by simpa using unlisted q⟩
      · simp only [List.length_append, List.length_singleton]; omega
      · simp [Option.some.inj h]
      · obtain h | h := List.mem_append.mp h
        · exact still q j h
        · obtain rfl := List.mem_singleton.mp h
          exact ⟨by simp [update], producer⟩
    · exact ⟨by rwa [unit q e], by rwa [unit q e], by rwa [unit q e], by rw [unit q e]; exact still q,
        by rw [State.Joined, unit q e]; exact notJoined⟩
  · by_cases e : j = k
    · subst e
      obtain rfl := Option.some.inj (update.symm.trans hu)
      exact ⟨by simp, p, producer, by simp [mine]⟩
    · rw [State.updateOf_congr (record j e)] at hu
      obtain ⟨length, q, hq, hj⟩ := hs.slot j u hu
      refine ⟨length, q, by rw [State.producer_congr (record j e), hq], ?_⟩
      by_cases hqp : q = p
      · subst hqp; simp [mine, hj]
      · rwa [unit q hqp]

/-- One slot's record replaced by one with an update of a lawful length (R32, R34). -/
theorem UpdateLaw.of_staged (hs : UpdateLaw s) {k : SlotNo} {r r' : Record} {x u : Update} (hk : s.record k = some r)
    (hx : r.openUpdate = some x) (hu : r'.openUpdate = some u) (producer : r'.producer = r.producer)
    (length : x.length ≤ 32 → u.length ≤ 32) (record : ∀ j, t.record j = if j = k then some r' else s.record j)
    (port : ∀ q, t.port q = s.port q) : UpdateLaw t := by
  have atk : t.record k = some r' := by simp [record]
  have other : ∀ j, j ≠ k → t.record j = s.record j := fun j e => by simp [record, e]
  refine hs.of_frame (fun j h => ?_) (fun j y hy => ?_) (fun q => by rw [port]) (fun q j h => .inl (by rwa [port] at h))
    fun q h => by rwa [State.Joined, port]
  · by_cases e : j = k
    · subst e
      rw [State.updateOf_of_record atk, State.producer_of_record atk, State.producer_of_record hk, hu]
      exact ⟨rfl, producer⟩
    · rw [State.updateOf_congr (other j e), State.producer_congr (other j e)]
      exact ⟨h, rfl⟩
  · by_cases e : j = k
    · subst e
      rw [State.updateOf_of_record atk, hu] at hy
      obtain rfl := Option.some.inj hy
      exact ⟨x, by rw [State.updateOf_of_record hk, hx], length⟩
    · rw [State.updateOf_congr (other j e)] at hy
      exact ⟨y, hy, id⟩

/-- A record replaced that has no open update before or after. -/
theorem UpdateLaw.setRecord (hs : UpdateLaw s) {k : SlotNo} {r' : Option Record} (before : s.updateOf k = none)
    (after : r'.bind Record.openUpdate = none) : UpdateLaw (s.setRecord k r') :=
  hs.of_unlisted (fun j e => by simp [e]) before (by simpa [State.updateOf] using after)
    fun q => ⟨by simp, by simp, fun h => by simpa [State.Joined] using h⟩

/-- A record replaced by one with the same update and producer. -/
theorem UpdateLaw.setRecord_same (hs : UpdateLaw s) {k : SlotNo} {r r' : Record} (hk : s.record k = some r)
    (update : r'.openUpdate = r.openUpdate) (producer : r'.producer = r.producer) :
    UpdateLaw (s.setRecord k (some r')) := by
  cases h : r.openUpdate with
  | none =>
    exact hs.setRecord (by rw [State.updateOf_of_record hk, h]) (by simp [update, h])
  | some x =>
    exact hs.of_staged hk h (update.trans h) producer id (fun j => State.record_setRecord_eq s k j _) fun q => by simp

/-- The end of LEAVING leaves who has joined. -/
theorem State.joined_settleLeaving (s : State) (p q : Port) : (s.settleLeaving p).Joined q ↔ s.Joined q := by
  simp only [State.Joined, State.port_settleLeaving]
  split
  · rename_i h
    obtain ⟨rfl, h, -⟩ := h
    simp [h]
  · rfl

theorem UpdateLaw.move (h : Move opens a s t) (hs : UpdateLaw s) : UpdateLaw t := by
  cases h with
  | @touched p _ w h =>
    refine hs.updatePort (f := fun _ => w) h.openList h.stagingPointer fun hj => ?_
    obtain ⟨state, -⟩ | ⟨-, state, -⟩ := h.state
    · rw [state]; exact hj
    · exact .inl state
  | joined => exact hs.updatePort rfl rfl fun _ => .inl rfl
  | dozed => exact hs.updatePort rfl rfl fun _ => .inr rfl
  | voted | queueSet | filtersSet | irqSet => exact hs.updatePort rfl rfl id
  | @claimed p _ k key depth period auto c rest _ _ _ _ hk =>
    refine hs.of_unlisted (k := k) (fun j e => by simp [State.record_claimed, e]) (by simp [State.updateOf, hk]) ?_
      fun q => ⟨by simp, by simp, fun h => by simpa [State.Joined] using h⟩
    rw [State.updateOf, State.record_claimed, if_pos rfl]
    rfl
  | closed _ _ hk hp =>
    exact hs.dropped (by rw [State.producer_of_record hk, hp]) (State.updateOf_closeUpdate s _ _)
      (fun j _ => State.producer_closeUpdate s _ _ j) (State.port_closeUpdate s _ · _)
  | @freed _ _ k r _ hk hp =>
    refine hs.of_unlisted (k := k) (fun j e => by simp [e]) (hs.updateOf_eq_none fun q hq => ?_) (by simp [State.updateOf])
      fun q => ⟨by simp, by simp, fun h => by simpa [State.Joined] using h⟩
    rw [State.producer_of_record hk] at hq
    exact (hp q hq).2.1
  | adopted _ _ hk ho =>
    have closed := hs.updateOf_eq_none fun q hq => by
      rw [State.producer_of_record hk, Record.producer_of_isOrphan ho] at hq
      exact absurd hq (by simp)
    refine hs.setRecord closed ?_
    rw [State.updateOf_of_record hk] at closed
    exact closed
  | opened ha _ hk hp hc hl => exact hs.opened ha hk hp hc hl
  | @pointed p _ k r hk hp hu =>
    have listed : k ∈ (s.port p).openList :=
      hs.mem_openList (by rwa [State.updateOf_of_record hk]) (by rw [State.producer_of_record hk, hp])
    refine hs.of_frame (fun j h => ⟨?_, ?_⟩) (fun j u h => ⟨u, ?_, id⟩) (fun q => ?_) (fun q j h => ?_) fun q h => ?_
    · rwa [State.updateOf_congr (s.record_updatePort p _ j)]
    · exact State.producer_congr (s.record_updatePort p _ j)
    · rwa [State.updateOf_congr (s.record_updatePort p _ j)] at h
    · rw [State.port_updatePort_eq]; split <;> rfl
    · rw [State.port_updatePort_eq] at h
      split at h
      · rename_i e
        subst e
        exact .inr (Option.some.inj h ▸ listed)
      · exact .inl h
    · rw [State.Joined, State.port_updatePort_eq]
      split <;> exact h
  | committed _ _ hk hp ht =>
    refine hs.commitSlot ?_ ht
    obtain hp | hp := hp
    · rw [State.producer_of_record hk, hp]
    · exact ((hs.port _).opened _ hp).2
  | @grouped p _ hl n =>
    have empty : (s.port p).openList = [] := List.eq_nil_iff_forall_not_mem.mpr fun k hk => by
      obtain ⟨isOpen, -⟩ := (hs.port p).opened k hk
      obtain ⟨u, hu⟩ := Option.isSome_iff_exists.mp isOpen
      obtain ⟨r, hr, hu⟩ := State.updateOf_eq_some.mp hu
      simp [hl k hk r hr] at hu
    refine hs.updatePort empty.symm ?_ id
    have pointer := (hs.port p).pointer
    rw [empty] at pointer
    exact (Option.eq_none_iff_forall_ne_some.mpr fun k hk => by simpa using pointer k hk).symm
  | watched _ hk w => exact hs.setRecord_same hk rfl rfl
  | @staged p _ k r c u hk hc hl v =>
    exact hs.of_staged hk (Record.openUpdate_of_staging hc)
      (r' := { r with next := .staging c (some { u with length := u.length + 1 }) }) rfl rfl (fun _ => hl)
      (fun j => by rw [State.record_setRecord_eq]; rfl) fun q => by simp
  | @overrun p _ k r c u hk hc =>
    exact hs.of_staged hk (Record.openUpdate_of_staging hc)
      (r' := { r with next := .staging c (some { u with overrun := true }) }) rfl rfl id
      (fun j => State.record_setRecord_eq s _ j _) fun q => by simp
  | lapsed _ hk hr _ => exact hs.setRecord_same hk rfl (by simp [Record.producer, hr])
  | @orphaned p _ k r hl hk hp hw =>
    have closed := hs.updateOf_eq_none (k := k) fun q hq => by
      obtain rfl := Option.some.inj ((State.producer_of_record hk).symm.trans hq |>.symm.trans hp)
      rw [(hs.port q).joined (by simp [State.Joined, hl])]
      exact List.not_mem_nil
    have orphan : UpdateLaw (s.setRecord k (some { r with life := .orphaned s.etc })) := by
      refine hs.setRecord closed ?_
      rw [State.updateOf_of_record hk] at closed
      exact closed
    refine orphan.of_same (fun j => by simp [State.orphaned]) (fun q => by simp [State.orphaned])
      (fun q => by simp [State.orphaned]) fun q h => ?_
    rwa [State.orphaned, State.joined_settleLeaving]
  | _ =>
    exact hs.of_same (fun k => by simp [State.record, State.slot]) (fun q => by simp) (fun q => by simp)
      fun q h => by simpa [State.Joined] using h

/-! ### What calls for a grant, and the grant -/

/-- The routing of an unpinned cell leaves every update and producer (R9). -/
theorem State.updateOf_unpinCell (s : State) (c : CellNo) (k : SlotNo) :
    (s.unpinCell c).updateOf k = s.updateOf k ∧ (s.unpinCell c).producer k = s.producer k := by
  obtain h | ⟨r, hk, hn, h⟩ := s.record_unpinCell c k
  · exact ⟨State.updateOf_congr h, State.producer_congr h⟩
  · rw [State.updateOf_of_record hk, State.updateOf_of_record h, State.producer_of_record hk, State.producer_of_record h]
    exact ⟨by simp [Record.openUpdate, hn], rfl⟩

theorem State.updateOf_cancelFetch (s : State) (f : FetchState) (k : SlotNo) :
    (s.cancelFetch f).updateOf k = s.updateOf k ∧ (s.cancelFetch f).producer k = s.producer k := by
  cases f with
  | inFlight x c =>
    rw [State.cancelFetch_inFlight]
    exact State.updateOf_unpinCell _ c k
  | _ => exact ⟨rfl, rfl⟩

theorem UpdateLaw.left (hs : UpdateLaw s) : UpdateLaw (s.leftBy p) := by
  have slot : ∀ k, (s.leftBy p).updateOf k = (s.leftUnit p).updateOf k ∧
      (s.leftBy p).producer k = (s.leftUnit p).producer k := fun k => by
    obtain ⟨update, producer⟩ := (s.leftUnit p).updateOf_cancelFetch (s.port p).fetch k
    have same := ((s.leftUnit p).cancelFetch (s.port p).fetch).record_settleLeaving p k
    exact ⟨(State.updateOf_congr same).trans update, (State.producer_congr same).trans producer⟩
  have port : ∀ q, ((s.leftBy p).port q).openList = ((s.leftUnit p).port q).openList ∧
      ((s.leftBy p).port q).stagingPointer = ((s.leftUnit p).port q).stagingPointer := fun q => by
    simp [State.leftBy_eq]
  refine hs.of_closed (p := p) (D := fun k => decide (k ∈ (s.port p).openList)) (fun k hk _ => ?_) (fun k => ?_)
    (fun k hk => ?_) ?_ (fun k h => ?_) (fun _ => .inr ?_) fun q hq => ⟨?_, ?_, fun h => ?_⟩
  · exact ((hs.port p).opened k (of_decide_eq_true hk)).2
  · rw [(slot k).1, State.updateOf, State.record_leftUnit]
    by_cases e : k ∈ (s.port p).openList
    · cases s.record k <;> simp [e]
    · simp [e, State.updateOf]
  · rw [(slot k).2]
    exact State.producer_congr (by rw [State.record_leftUnit, if_neg (of_decide_eq_false hk)])
  · rw [(port p).1, State.port_leftUnit, if_pos rfl]
    exact (List.filter_eq_nil_iff.mpr fun k hk => by simp [hk]).symm
  · rw [(port p).2, State.port_leftUnit, if_pos rfl] at h
    exact absurd h (by simp [PortUnit.left])
  · rw [(port p).1, State.port_leftUnit, if_pos rfl]
    rfl
  · rw [(port q).1, State.port_leftUnit, if_neg hq]
  · rw [(port q).2, State.port_leftUnit, if_neg hq]
  · rw [State.leftBy_eq, State.joined_settleLeaving, State.Joined, State.port_cancelFetch, State.port_leftUnit, if_neg hq]
    exact h

/-- A state with the same records and, for each port, the same list, pointer and state. -/
theorem UpdateLaw.of_slots (hs : UpdateLaw s)
    (slot : ∀ k, t.updateOf k = s.updateOf k ∧ t.producer k = s.producer k)
    (port : ∀ q, (t.port q).openList = (s.port q).openList ∧ (t.port q).stagingPointer = (s.port q).stagingPointer ∧
      (t.port q).state = (s.port q).state) : UpdateLaw t :=
  hs.of_frame (fun k h => ⟨by rwa [(slot k).1], (slot k).2⟩) (fun k u h => ⟨u, by rwa [(slot k).1] at h, id⟩)
    (fun q => (port q).1) (fun q k h => .inl (by rwa [(port q).2.1] at h))
    fun q h => by rwa [State.Joined, (port q).2.2]

theorem UpdateLaw.stir (h : Stir a s t) (hs : UpdateLaw s) : UpdateLaw t := by
  cases h with
  | pushed | distributed => exact hs.of_slots (fun k => ⟨rfl, rfl⟩) fun q => by simp
  | fetched =>
    refine hs.of_slots (fun k => ⟨State.updateOf_congr (by simp), State.producer_congr (by simp)⟩) fun q => ?_
    rw [State.port_updatePort_eq, State.port_pinCell]
    split <;> exact ⟨rfl, rfl, rfl⟩
  | left => exact hs.left
  | @copied p c =>
    refine hs.of_slots (fun k => ?_) fun q => ?_
    · obtain ⟨update, producer⟩ := (s.updatePort p fun u => u.delivered (s.cell c).content).updateOf_unpinCell c k
      exact ⟨update.trans (State.updateOf_congr (by simp)), producer.trans (State.producer_congr (by simp))⟩
    · rw [State.port_mk, State.port_unpinCell, State.port_updatePort_eq]
      split <;> exact ⟨rfl, rfl, rfl⟩

theorem UpdateLaw.grant (hs : UpdateLaw s) : UpdateLaw s.grant :=
  hs.of_slots (fun k => ⟨State.updateOf_congr (by simp), State.producer_congr (by simp)⟩) fun q => by simp

theorem UpdateLaw.resetWith (s : State) (b : Bool) : UpdateLaw (s.resetWith b) :=
  updateLaw_iff.mpr ⟨fun q => by
    refine ⟨?_, ?_, fun k h => ?_, fun k h => ?_, fun _ => ?_⟩ <;> rw [State.port_resetWith] at * <;>
      simp_all [PortUnit.afterReset, PortUnit.reset], fun k u h => by simp [State.updateOf] at h⟩

/-- Settles O51: each list keeps naming exactly the open updates of its port. -/
theorem openUpdatesStayListed : Obligations.OpenUpdatesStayListed := fun _ _ hs h =>
  step_keeps (fun _ _ h => h.of_slots (fun k => ⟨rfl, rfl⟩) fun q => by simp) UpdateLaw.resetWith
    (fun _ _ _ h hs => hs.move h) (fun _ _ _ h hs => hs.stir h) (fun _ hs => hs.grant) hs h

end Sys2Proof.Machine
end

section
/-! PROOF. The request table keeps its law (R133, R139). -/

namespace Sys2Proof.Machine

variable {opens : Prop} {a : Option Port} {p : Port} {s t : State}

/-! ### The positions of a port's entries (R134) -/

/-- The positions that hold an entry of a port. -/
def State.requestPositions (s : State) (p : Port) : Finset EntryNo :=
  Finset.univ.filter fun i => ∃ e, s.entry i = some e ∧ e.requester = p

/-- The entries found along a list of positions, counted. -/
theorem State.length_filter_entries (s : State) (f : Entry → Bool) (is : List EntryNo) :
    ((is.filterMap s.entry).filter f).length = (is.filter fun i => (s.entry i).any f).length := by
  induction is with
  | nil => rfl
  | cons i is ih =>
    cases h : s.entry i with
    | none => simp [h, ih]
    | some e => by_cases hf : f e <;> simp [h, hf, ih]

theorem State.requestCount_eq (s : State) (p : Port) : s.requestCount p = (s.requestPositions p).card := by
  have positions : s.requestPositions p =
      (allEntries.filter fun i => (s.entry i).any fun e => e.requester == p).toFinset := by
    ext i
    simp [State.requestPositions, Option.any_eq_true]
  have nodup : (allEntries.filter fun i => (s.entry i).any fun e => e.requester == p).Nodup :=
    (List.nodup_finRange 16).filter _
  rw [State.requestCount, State.waitingEntries, State.length_filter_entries, positions,
    List.toFinset_card_of_nodup nodup]

/-- A port with fewer entries has no greater count. -/
theorem State.requestCount_le (h : ∀ i e, t.entry i = some e → e.requester = p → s.entry i = some e) :
    t.requestCount p ≤ s.requestCount p := by
  rw [State.requestCount_eq, State.requestCount_eq]
  refine Finset.card_le_card fun i hi => ?_
  simp only [State.requestPositions, Finset.mem_filter, Finset.mem_univ, true_and] at hi ⊢
  obtain ⟨e, he, hp⟩ := hi
  exact ⟨e, h i e he hp, hp⟩

theorem State.requestCount_eq_zero : s.requestCount p = 0 ↔ ∀ i e, s.entry i = some e → e.requester ≠ p := by
  rw [State.requestCount_eq, Finset.card_eq_zero, State.requestPositions, Finset.filter_eq_empty_iff]
  simp

/-- A new entry raises its requester's count by at most one, and no other. -/
theorem State.requestCount_setEntry_le (s : State) (i : EntryNo) (e : Entry) (q : Port) :
    (s.setEntry i (some e)).requestCount q ≤ s.requestCount q + if e.requester = q then 1 else 0 := by
  rw [State.requestCount_eq, State.requestCount_eq]
  have mem : ∀ j ∈ (s.setEntry i (some e)).requestPositions q, j ∈ s.requestPositions q ∨ j = i ∧ e.requester = q := by
    intro j hj
    simp only [State.requestPositions, Finset.mem_filter, Finset.mem_univ, true_and, State.entry_setEntry_eq] at hj ⊢
    obtain ⟨x, hx, hq⟩ := hj
    split at hx
    · rename_i h
      exact .inr ⟨h, by rwa [Option.some.inj hx]⟩
    · exact .inl ⟨x, hx, hq⟩
  split
  · refine (Finset.card_le_card (t := insert i (s.requestPositions q)) fun j hj => ?_).trans (Finset.card_insert_le _ _)
    obtain h | ⟨h, -⟩ := mem j hj <;> simp [h]
  · rename_i hne
    exact Finset.card_le_card fun j hj => (mem j hj).resolve_right fun h => hne h.2

/-- A port without an entry on a slot's incarnation (R135). -/
theorem State.hasEntry_eq_false {k : SlotNo} :
    s.hasEntry p k = false ↔
      ∀ i e, s.entry i = some e → e.requester = p → e.waitsOn k (s.slot k).incarnation = false := by
  simp only [State.hasEntry, List.any_eq_false, State.waitingEntries, List.mem_filterMap, mem_allEntries, true_and,
    Bool.and_eq_true, beq_iff_eq, not_and, Bool.not_eq_true]
  exact ⟨fun h i e he => h e ⟨i, he⟩, fun h e ⟨i, he⟩ => h i e he⟩

theorem Entry.waitsOn_iff {e : Entry} {k : SlotNo} {b : Byte} :
    e.waitsOn k b = true ↔ e.slot = k ∧ e.incarnation = b := by
  simp [Entry.waitsOn]

/-! ### What keeps the law -/

/-- What the law says of one entry (R139). -/
def State.EntryLawful (s : State) (e : Entry) : Prop :=
  (s.slot e.slot).incarnation = e.incarnation ∧ ∃ q, s.producer e.slot = some q ∧ q ≠ e.requester

theorem RequestLaw.entryLawful (hs : RequestLaw s) {i : EntryNo} {e : Entry} (h : s.entry i = some e) :
    s.EntryLawful e := by
  obtain ⟨same, r, q, hr, hq, hne⟩ := hs.2.2 i e h
  exact ⟨same, q, State.producer_eq_some.mpr ⟨r, hr, hq⟩, hne⟩

theorem RequestLaw.of_entries (count : ∀ p, s.requestCount p ≤ 4)
    (unique : ∀ i j x y, s.entry i = some x → s.entry j = some y → x.requester = y.requester → x.slot = y.slot → i = j)
    (lawful : ∀ i e, s.entry i = some e → s.EntryLawful e) : RequestLaw s := by
  refine ⟨count, unique, fun i e h => ?_⟩
  obtain ⟨same, q, hq, hne⟩ := lawful i e h
  obtain ⟨r, hr, hq⟩ := State.producer_eq_some.mp hq
  exact ⟨same, r, q, hr, hq, hne⟩

/-- The law stands with fewer entries, on slots with the same incarnation and producer. -/
theorem RequestLaw.of_fewer (hs : RequestLaw s) (entries : ∀ i e, t.entry i = some e → s.entry i = some e)
    (slots : ∀ i e, t.entry i = some e → s.EntryLawful e →
      (t.slot e.slot).incarnation = (s.slot e.slot).incarnation ∧ t.producer e.slot = s.producer e.slot) :
    RequestLaw t := by
  refine .of_entries (fun q => (State.requestCount_le fun i e he _ => entries i e he).trans (hs.1 q))
    (fun i j x y hx hy => hs.2.1 i j x y (entries i x hx) (entries j y hy)) fun i e he => ?_
  have lawful := hs.entryLawful (entries i e he)
  obtain ⟨incarnation, producer⟩ := slots i e he lawful
  rw [State.EntryLawful, incarnation, producer]
  exact lawful

/-- The law stands with the same entries, incarnations and producers. -/
theorem RequestLaw.of_same (hs : RequestLaw s) (entries : ∀ i, t.entry i = s.entry i)
    (slots : ∀ k, (t.slot k).incarnation = (s.slot k).incarnation ∧ t.producer k = s.producer k) : RequestLaw t :=
  hs.of_fewer (fun i e h => by rwa [entries] at h) fun i e _ _ => slots e.slot

/-- A record replaced, with the entries of its slot gone where its producer changed. -/
theorem RequestLaw.of_slot (hs : RequestLaw s) {k : SlotNo} (entries : ∀ i e, t.entry i = some e → s.entry i = some e)
    (record : ∀ j, j ≠ k → t.slot j = s.slot j)
    (gone : ∀ i e, t.entry i = some e → s.EntryLawful e → e.slot ≠ k) : RequestLaw t :=
  hs.of_fewer entries fun i e h hl => by
    have other := record e.slot (gone i e h hl)
    exact ⟨by rw [other], by simp only [State.producer, State.record, other]⟩

/-- No lawful entry is on a slot on which none waits (R139). -/
theorem State.EntryLawful.slot_ne {e : Entry} {k : SlotNo} {i : EntryNo} (h : s.EntryLawful e) (he : s.entry i = some e)
    (hw : s.NoneWaitsOn k) : e.slot ≠ k := by
  rintro rfl
  have := hw i e he
  simp [Entry.waitsOn, h.1] at this

theorem State.slot_setRecord_incarnation (s : State) (k j : SlotNo) (r : Option Record) :
    ((s.setRecord k r).slot j).incarnation = (s.slot j).incarnation := by
  by_cases e : j = k
  · subst e; simp [State.setRecord]
  · simp [State.setRecord, e]

/-- A record replaced by one of the same producer. -/
theorem RequestLaw.setRecord (hs : RequestLaw s) {k : SlotNo} {r r' : Record} (hk : s.record k = some r)
    (hp : r'.producer = r.producer) : RequestLaw (s.setRecord k (some r')) :=
  hs.of_same (fun i => rfl) fun j => ⟨s.slot_setRecord_incarnation k j _, by
    by_cases e : j = k
    · subst e
      rw [State.producer_of_record hk, State.producer_of_record (State.record_setRecord s j _), hp]
    · exact State.producer_congr (by simp [e])⟩

theorem RequestLaw.updatePort (hs : RequestLaw s) (f : PortUnit → PortUnit) : RequestLaw (s.updatePort p f) :=
  hs.of_same (fun i => by simp) fun k => ⟨by simp, State.producer_congr (by simp)⟩

theorem RequestLaw.commitSlot (hs : RequestLaw s) {now : Time} {tag : Option GroupTag} {k : SlotNo} {m : Published}
    (h : s.commitSlot p now tag k = some (t, m)) : RequestLaw t := by
  have entry : ∀ i, t.entry i = (s.entry i).filter fun e => !e.waitsOn k (s.slot k).incarnation := fun i => by
    obtain ⟨r, c, u, -, -, rfl, -⟩ := State.commitSlot_some.mp h
    simp
  have left : ∀ i e, t.entry i = some e → s.entry i = some e ∧ e.waitsOn k (s.slot k).incarnation = false := fun i e h => by
    rw [entry, Option.filter_eq_some_iff] at h
    simpa using h
  obtain ⟨record, incarnation, -⟩ := State.commitSlot_others h
  refine hs.of_fewer (fun i e he => (left i e he).1) fun i e he lawful => ⟨incarnation e.slot, State.producer_congr ?_⟩
  refine record e.slot fun slot => ?_
  have := (left i e he).2
  simp [Entry.waitsOn, slot, ← lawful.1] at this

/-- A new entry: its port has room for it and none on its slot (R134, R135, R138). -/
theorem RequestLaw.entered (hs : RequestLaw s) {k : SlotNo} {r : Record} {q : Port} {i : EntryNo} {e : Entry}
    (hk : s.record k = some r) (hq : r.producer = some q) (hqp : q ≠ p) (hmine : s.hasEntry p k = false)
    (hcount : s.requestCount p < 4)
    (he : e.requester = p ∧ e.slot = k ∧ e.incarnation = (s.slot k).incarnation) :
    RequestLaw (s.setEntry i (some e)) := by
  obtain ⟨requester, slot, incarnation⟩ := he
  have lawful : s.EntryLawful e := by
    rw [State.EntryLawful, slot, requester, State.producer_of_record hk]
    exact ⟨incarnation.symm, q, hq, hqp⟩
  have alone : ∀ j x, s.entry j = some x → x.requester = e.requester → x.slot ≠ e.slot := fun j x hx hr hslot => by
    have := State.hasEntry_eq_false.mp hmine j x hx (hr.trans requester)
    have same := (hs.entryLawful hx).1
    rw [hslot.trans slot] at same
    simp [Entry.waitsOn, hslot.trans slot, same] at this
  refine .of_entries (fun p' => ?_) (fun j j' x y hx hy hr hslot => ?_) fun j x hx => ?_
  · have := s.requestCount_setEntry_le i e p'
    have before := hs.1 p'
    split at this
    · rename_i h
      rw [← h, requester] at this ⊢
      omega
    · omega
  · rw [State.entry_setEntry_eq] at hx hy
    split at hx <;> split at hy
    · simp_all
    · obtain rfl := Option.some.inj hx
      exact absurd hslot.symm (alone j' y hy hr.symm)
    · obtain rfl := Option.some.inj hy
      exact absurd hslot (alone j x hx hr)
    · exact hs.2.1 j j' x y hx hy hr hslot
  · rw [State.entry_setEntry_eq] at hx
    split at hx
    · obtain rfl := Option.some.inj hx
      exact lawful
    · exact hs.entryLawful hx

theorem RequestLaw.move (h : Move opens a s t) (hs : RequestLaw s) : RequestLaw t := by
  cases h with
  | touched => exact hs.updatePort fun _ => _
  | joined | dozed | voted | queueSet | filtersSet | irqSet | pointed | grouped => exact hs.updatePort _
  | @claimed p _ k key depth period auto c rest _ _ _ _ hk =>
    refine hs.of_slot (k := k) (fun i e h => by simpa [State.entry] using h) (fun j e => by simp [e]) fun i e _ lawful => ?_
    rintro rfl
    obtain ⟨-, q, hq, -⟩ := lawful
    simp [State.producer, hk] at hq
  | @closed p _ k r _ _ hk _ =>
    exact hs.of_same (fun i => by simp) fun j => ⟨by simp, State.producer_closeUpdate s p k j⟩
  | @freed _ _ k r _ hk hp =>
    refine hs.of_fewer (fun i e h => by simpa using h) fun i e h lawful => ⟨by simp, State.producer_congr ?_⟩
    rw [State.record_freeSlot, if_neg]
    intro slot
    obtain ⟨q, hq, -⟩ := lawful.2
    rw [slot, State.producer_of_record hk] at hq
    exact lawful.slot_ne (by simpa using h) (hp q hq).2.2 slot
  | @adopted p _ k r _ _ hk ho =>
    refine hs.of_slot (k := k) (fun i e h => h) (fun j e => by simp [State.setRecord, e]) fun i e _ lawful => ?_
    rintro rfl
    obtain ⟨-, q, hq, -⟩ := lawful
    simp [State.producer_of_record hk, Record.producer_of_isOrphan ho] at hq
  | @opened p _ k r c _ _ hk =>
    exact (hs.setRecord (r' := r.withUpdate c { length := 0, overrun := false }) hk rfl).updatePort _
  | committed _ _ _ _ ht => exact hs.commitSlot ht
  | watched _ hk | overrun hk => exact hs.setRecord hk rfl
  | @staged p _ k r c u hk hc hl v =>
    have cell : RequestLaw (s.setCell c { s.cell c with content := (s.cell c).content.stage u.length v }) :=
      hs.of_same (fun i => rfl) fun k => ⟨rfl, rfl⟩
    exact cell.setRecord hk rfl
  | entered _ _ hk hq hqp hmine _ hcount he => exact hs.entered hk hq hqp hmine hcount he
  | entriesLost hv =>
    refine hs.of_fewer (fun i e h => ?_) fun i e _ _ => ⟨rfl, rfl⟩
    rw [State.entry_withEntries] at h
    obtain e | e := hv i
    · simp [e] at h
    · rwa [e] at h
  | lapsed _ hk hr => exact hs.setRecord hk (by simp [Record.producer, hr])
  | @orphaned p _ k r _ hk _ hw =>
    refine hs.of_slot (k := k) (fun i e h => by simpa [State.orphaned] using h)
      (fun j e => by simp [State.orphaned, State.setRecord, e]) fun i e h lawful => ?_
    exact lawful.slot_ne (by simpa [State.orphaned] using h) hw
  | _ =>
    exact hs.of_same (fun i => by simp [State.entry]) fun k => ⟨by simp [State.slot],
      State.producer_congr (by simp [State.record, State.slot])⟩

theorem RequestLaw.stir (h : Stir a s t) (hs : RequestLaw s) : RequestLaw t := by
  cases h with
  | pushed | distributed => exact hs.of_same (fun i => rfl) fun k => ⟨rfl, rfl⟩
  | fetched => exact hs.of_same (fun i => by simp) fun k => ⟨by simp, State.producer_congr (by simp)⟩
  | @left p =>
    refine hs.of_fewer (fun i e h => ?_) fun i e _ _ => ⟨by simp [State.leftBy_eq], ?_⟩
    · rw [State.leftBy_eq, State.entry_settleLeaving, State.entry_cancelFetch, State.entry_leftUnit,
        Option.filter_eq_some_iff] at h
      exact h.1
    · have same := State.producer_congr (((s.leftUnit p).cancelFetch (s.port p).fetch).record_settleLeaving p e.slot)
      rw [State.leftBy_eq, same, ((s.leftUnit p).updateOf_cancelFetch _ _).2, State.producer, State.record_leftUnit]
      unfold State.producer
      split_ifs
      · cases s.record e.slot <;> simp
      · rfl
  | @copied p c =>
    refine hs.of_same (fun i => by simp) fun k => ⟨?_, ?_⟩
    · simp
    · exact ((s.updatePort p fun u => u.delivered (s.cell c).content).updateOf_unpinCell c k).2.trans
        (State.producer_congr (by simp))

theorem RequestLaw.grant (hs : RequestLaw s) : RequestLaw s.grant :=
  hs.of_same (fun i => by simp) fun k => ⟨by simp, State.producer_congr (by simp)⟩

theorem RequestLaw.resetWith (s : State) (b : Bool) : RequestLaw (s.resetWith b) := by
  have none : ∀ i e, (s.resetWith b).entry i ≠ some e := fun i e => by simp
  refine .of_entries (fun q => ?_) (fun i j x y hx => absurd hx (none i x)) fun i e h => absurd h (none i e)
  rw [State.requestCount_eq_zero.mpr fun i e h => absurd h (none i e)]
  exact Nat.zero_le 4

/-- Settles O55: whatever changes a slot's producer ends the slot's entries. -/
theorem requestTableStaysLawful : Obligations.RequestTableStaysLawful := fun _ _ hs h =>
  step_keeps (fun _ _ h => h.of_same (fun _ => rfl) fun _ => ⟨rfl, rfl⟩) RequestLaw.resetWith
    (fun _ _ _ h hs => hs.move h) (fun _ _ _ h hs => hs.stir h) (fun _ hs => hs.grant) hs h

end Sys2Proof.Machine
end

section
/-! PROOF. What a port holds in each port state stays so (R81, R86, R148, R157). -/

namespace Sys2Proof.Machine

variable {opens : Prop} {a : Option Port} {p q : Port} {s t : State}

/-! ### The law by port -/

/-- A unit in ACTIVE or DOZE (R148). -/
def PortUnit.IsJoined (u : PortUnit) : Prop := u.state = .active ∨ u.state = .doze

/-- What the law says of a port's own unit (R81, R86, R148). -/
structure PortUnit.Clean (u : PortUnit) : Prop where
  accepting : u.queue.accepting = true ↔ u.IsJoined
  wake : u.queue.wakePending = true → u.state = .doze
  vote : u.vote = true → u.IsJoined
  cleared : ¬ u.IsJoined → u.queue.entries = [] ∧ u.filters = Vector.replicate 8 noFilter ∧ u.fetch = .idle

/-- A slot has the port as its producer (R157). -/
def State.Produces (s : State) (p : Port) : Prop := ∃ k, s.producer k = some p

theorem State.producedSlots_eq_nil : s.producedSlots p = [] ↔ ¬ s.Produces p := by
  simp [State.producedSlots, State.Produces, List.filter_eq_nil_iff]

/-- What the law says of a port's requests and slots (R148, R157). -/
structure State.Placed (s : State) (p : Port) : Prop where
  requests : ¬ s.Joined p → s.requestCount p = 0
  offline : (s.port p).state = .offline → ¬ s.Produces p
  leaving : (s.port p).state = .leaving → s.Produces p

theorem portLaw_iff : PortLaw s ↔ ∀ p, (s.port p).Clean ∧ s.Placed p := by
  refine forall_congr' fun p => ?_
  simp only [ne_eq, State.producedSlots_eq_nil, not_not]
  exact ⟨fun ⟨accepting, wake, vote, apart, offline, leaving⟩ =>
      ⟨⟨accepting, wake, vote, fun h => ⟨(apart h).1, (apart h).2.1, (apart h).2.2.1⟩⟩,
        ⟨fun h => (apart h).2.2.2, offline, leaving⟩⟩,
    fun ⟨⟨accepting, wake, vote, cleared⟩, ⟨requests, offline, leaving⟩⟩ =>
      ⟨accepting, wake, vote, fun h => ⟨(cleared h).1, (cleared h).2.1, (cleared h).2.2, requests h⟩, offline, leaving⟩⟩

/-! ### What keeps the law -/

/-- The law of a unit reads its state, its queue's admission, its vote, its filters and its fetch. -/
theorem PortUnit.Clean.of_eq {u w : PortUnit} (h : u.Clean) (state : w.state = u.state)
    (accepting : w.queue.accepting = u.queue.accepting)
    (wake : w.queue.wakePending = true → u.queue.wakePending = true) (vote : w.vote = true → u.vote = true)
    (entries : u.queue.entries = [] → w.queue.entries = []) (filters : w.filters = u.filters)
    (fetch : u.fetch = .idle → w.fetch = .idle) : w.Clean where
  accepting := by rw [PortUnit.IsJoined, state, accepting]; exact h.accepting
  wake e := by rw [state]; exact h.wake (wake e)
  vote e := by rw [PortUnit.IsJoined, state]; exact h.vote (vote e)
  cleared hj := by
    rw [PortUnit.IsJoined, state] at hj
    obtain ⟨noEntries, noFilters, idle⟩ := h.cleared hj
    exact ⟨entries noEntries, filters.trans noFilters, fetch idle⟩

/-- The law of a joined unit: its queue accepts, and wake pending stands in DOZE alone. -/
theorem PortUnit.Clean.of_joined {w : PortUnit} (joined : w.IsJoined) (accepting : w.queue.accepting = true)
    (wake : w.queue.wakePending = true → w.state = .doze) : w.Clean :=
  ⟨iff_of_true accepting joined, wake, fun _ => joined, fun h => absurd joined h⟩

theorem PortUnit.Clean.touched {u w : PortUnit} (hu : u.Clean) (h : u.Touched w) : w.Clean := by
  obtain ⟨state, wake⟩ | ⟨doze, active, wake⟩ := h.state
  · refine hu.of_eq state h.accepting (fun e => by rwa [← wake]) (fun e => by rwa [← h.vote]) (fun e => ?_) h.filters
      fun e => ?_
    · obtain entries | entries := h.entries <;> rw [entries, e]
      rfl
    · obtain fetch | ⟨-, fetch⟩ := h.fetch
      · rw [fetch, e]
      · exact fetch
  · exact .of_joined (.inl active) (by rw [h.accepting, hu.accepting]; exact .inr doze) fun e => by simp [wake] at e

/-- A port in ACTIVE or DOZE has no law to keep for its requests and slots. -/
theorem State.Placed.of_joined (h : t.Joined q) : t.Placed q where
  requests hj := absurd h hj
  offline e := by simp [State.Joined, e] at h
  leaving e := by simp [State.Joined, e] at h

theorem State.Placed.of_same (h : s.Placed q) (state : (t.port q).state = (s.port q).state)
    (entries : ∀ i e, t.entry i = some e → e.requester = q → s.entry i = some e)
    (produces : t.Produces q ↔ s.Produces q) : t.Placed q where
  requests hj := by
    rw [State.Joined, state] at hj
    exact Nat.le_zero.mp ((State.requestCount_le entries).trans (h.requests hj).le)
  offline e := by rw [produces]; exact h.offline (state ▸ e)
  leaving e := by rw [produces]; exact h.leaving (state ▸ e)

theorem State.produces_congr (h : ∀ k, t.producer k = s.producer k) : t.Produces q ↔ s.Produces q := by
  simp only [State.Produces, h]

/-- One slot changed, that the port produces neither before nor after. -/
theorem State.produces_of_slot {k : SlotNo} (record : ∀ j, j ≠ k → t.record j = s.record j)
    (before : s.producer k ≠ some q) (after : t.producer k ≠ some q) : t.Produces q ↔ s.Produces q := by
  refine exists_congr fun j => ?_
  by_cases e : j = k
  · subst e; exact iff_of_false after before
  · rw [State.producer_congr (record j e)]

/-- The law stands where no port's unit, request or slot has changed for it. -/
theorem PortLaw.of_units (hs : PortLaw s) (unit : ∀ q, (s.port q).Clean → (t.port q).Clean)
    (state : ∀ q, t.Joined q ∨ (t.port q).state = (s.port q).state)
    (entries : ∀ q, t.Joined q ∨ ∀ i e, t.entry i = some e → e.requester = q → s.entry i = some e)
    (produces : ∀ q, t.Joined q ∨ (t.Produces q ↔ s.Produces q)) : PortLaw t := by
  refine portLaw_iff.mpr fun q => ?_
  obtain ⟨clean, placed⟩ := portLaw_iff.mp hs q
  refine ⟨unit q clean, ?_⟩
  by_cases joined : t.Joined q
  · exact .of_joined joined
  · exact placed.of_same ((state q).resolve_left joined) ((entries q).resolve_left joined)
      ((produces q).resolve_left joined)

/-- A changed port keeps the law when its own unit does, and its state is as it was or is a joined one. -/
theorem PortLaw.updatePort (hs : PortLaw s) {f : PortUnit → PortUnit} (clean : (s.port p).Clean → (f (s.port p)).Clean)
    (state : (f (s.port p)).IsJoined ∨ (f (s.port p)).state = (s.port p).state) : PortLaw (s.updatePort p f) := by
  refine hs.of_units (fun q hq => ?_) (fun q => ?_) (fun q => .inr fun i e h _ => by simpa using h)
    fun q => .inr (State.produces_congr fun k => State.producer_congr (by simp))
  · rw [State.port_updatePort_eq]
    split
    · rename_i e
      subst e
      exact clean hq
    · exact hq
  · by_cases e : q = p
    · subst e; simpa [State.Joined, PortUnit.IsJoined] using state
    · exact .inr (by simp [e])

/-- The law stands where the ports are as they were, and so are the requests and slots of every port not joined. -/
theorem PortLaw.of_ports (hs : PortLaw s) (port : ∀ q, t.port q = s.port q)
    (entries : ∀ q, s.Joined q ∨ ∀ i e, t.entry i = some e → e.requester = q → s.entry i = some e)
    (produces : ∀ q, s.Joined q ∨ (t.Produces q ↔ s.Produces q)) : PortLaw t := by
  have joined : ∀ q, t.Joined q ↔ s.Joined q := fun q => by rw [State.Joined, port]; rfl
  exact hs.of_units (fun q h => by rwa [port]) (fun q => .inr (by rw [port]))
    (fun q => by rw [joined]; exact entries q) fun q => by rw [joined]; exact produces q

/-- A record replaced by one of the same producer. -/
theorem PortLaw.setRecord (hs : PortLaw s) {k : SlotNo} {r r' : Record} (hk : s.record k = some r)
    (hp : r'.producer = r.producer) : PortLaw (s.setRecord k (some r')) := by
  refine hs.of_ports (fun q => by simp) (fun q => .inr fun i e h _ => h) fun q => .inr (State.produces_congr fun j => ?_)
  by_cases e : j = k
  · subst e
    rw [State.producer_of_record hk, State.producer_of_record (State.record_setRecord s j _), hp]
  · exact State.producer_congr (by simp [e])

theorem State.producer_commitSlot {now : Time} {tag : Option GroupTag} {k : SlotNo} {m : Published}
    (hp : s.producer k = some p) (h : s.commitSlot p now tag k = some (t, m)) (j : SlotNo) :
    t.producer j = s.producer j := by
  by_cases e : j = k
  · subst e
    obtain ⟨r, c, u, w, hk, -, hr, -⟩ := State.commitSlot_record h
    rw [hp, State.producer_of_record hr]
    rfl
  · exact State.producer_congr ((State.commitSlot_others h).1 j e)

/-- In LEAVING a port becomes OFFLINE once it produces no slot (R157). -/
theorem State.Placed.settleLeaving {u : State} (state : (u.port p).state = .leaving) (count : u.requestCount p = 0) :
    (u.settleLeaving p).Placed p := by
  have produces : (u.settleLeaving p).Produces p ↔ u.Produces p :=
    State.produces_congr fun k => State.producer_congr (u.record_settleLeaving p k)
  have requests : (u.settleLeaving p).requestCount p = 0 :=
    Nat.le_zero.mp ((State.requestCount_le fun i e h _ => by simpa using h).trans count.le)
  have after : ((u.settleLeaving p).port p).state = if u.producedSlots p = [] then .offline else .leaving := by
    rw [State.port_settleLeaving]
    simp [state]
  refine ⟨fun _ => requests, fun h => ?_, fun h => ?_⟩ <;> rw [after] at h <;> rw [produces] <;> split at h
  · exact State.producedSlots_eq_nil.mp ‹_›
  · exact absurd h (by simp)
  · exact absurd h (by simp)
  · exact not_not.mp (mt State.producedSlots_eq_nil.mpr ‹_›)

/-- The end of LEAVING leaves what the law says of units that have not joined. -/
theorem PortUnit.Clean.settleLeaving {u : State} (h : (u.port q).Clean) : ((u.settleLeaving p).port q).Clean := by
  have joined := State.joined_settleLeaving u p q
  rw [State.Joined, State.Joined] at joined
  refine ⟨?_, fun e => ?_, fun e => ?_, fun hj => ?_⟩
  · rw [PortUnit.IsJoined, joined]
    simpa [PortUnit.IsJoined] using h.accepting
  · have doze := h.wake (by simpa using e)
    rw [State.port_settleLeaving]
    split
    · rename_i hl
      obtain ⟨rfl, hl, -⟩ := hl
      simp [hl] at doze
    · exact doze
  · rw [PortUnit.IsJoined, joined]
    exact h.vote (by simpa using e)
  · rw [PortUnit.IsJoined, joined] at hj
    simpa using h.cleared hj

theorem PortLaw.orphaned (hs : PortLaw s) {k : SlotNo} {r : Record} (hl : (s.port p).state = .leaving)
    (hk : s.record k = some r) (hp : r.producer = some p) : PortLaw (s.orphaned p k r) := by
  generalize hu : s.setRecord k (some { r with life := .orphaned s.etc }) = u
  have orphaned : s.orphaned p k r = u.settleLeaving p := by rw [State.orphaned, hu]
  have port : ∀ q, u.port q = s.port q := fun q => by subst hu; simp
  have entry : ∀ i, u.entry i = s.entry i := fun i => by subst hu; simp
  have produces : ∀ q, q ≠ p → (u.Produces q ↔ s.Produces q) := fun q hq => by
    refine State.produces_of_slot (k := k) (fun j e => by subst hu; simp [e]) ?_ ?_
    · rw [State.producer_of_record hk, hp]
      simpa using hq.symm
    · subst hu
      rw [State.producer_of_record (State.record_setRecord s k _)]
      simp [Record.producer]
  rw [orphaned]
  refine portLaw_iff.mpr fun q => ?_
  obtain ⟨clean, placed⟩ := portLaw_iff.mp hs q
  refine ⟨.settleLeaving (by rwa [port]), ?_⟩
  by_cases e : q = p
  · subst e
    have zero := placed.requests (by simp [State.Joined, hl])
    exact .settleLeaving (by rw [port, hl])
      (Nat.le_zero.mp ((State.requestCount_le fun i e h _ => by rwa [entry] at h).trans zero.le))
  · refine placed.of_same ?_ (fun i x h _ => by simpa [entry] using h) ?_
    · rw [State.port_settleLeaving, port]
      simp [e]
    · exact (State.produces_congr fun j => State.producer_congr (u.record_settleLeaving p j)).trans (produces q e)

theorem PortLaw.move (h : Move opens a s t) (hu : UpdateLaw s) (hs : PortLaw s) : PortLaw t := by
  cases h with
  | @touched p _ w h =>
    refine hs.updatePort (f := fun _ => w) (fun hc => hc.touched h) ?_
    obtain ⟨state, -⟩ | ⟨-, state, -⟩ := h.state
    · exact .inr state
    · exact .inl (.inl state)
  | joined => exact hs.updatePort (fun _ => .of_joined (.inl rfl) rfl fun e => absurd e (by simp [PortUnit.joined])) (.inl (.inl rfl))
  | dozed h => exact hs.updatePort (fun hc => .of_joined (.inr rfl) (hc.accepting.mpr (.inl h)) fun _ => rfl) (.inl (.inr rfl))
  | voted h => exact hs.updatePort (fun hc => .of_joined (.inl h) (hc.accepting.mpr (.inl h)) hc.wake) (.inr rfl)
  | filtersSet h => exact hs.updatePort (fun hc => .of_joined (.inl h) (hc.accepting.mpr (.inl h)) hc.wake) (.inr rfl)
  | queueSet | irqSet | pointed | grouped => exact hs.updatePort (fun hc => hc.of_eq rfl rfl id id id rfl id) (.inr rfl)
  | running | generationRaised =>
    refine hs.of_units (fun q hc => ?_) (fun q => .inr (by simp)) (fun q => .inr fun i e h _ => by simpa [State.entry] using h)
      fun q => .inr (State.produces_congr fun k => State.producer_congr (by simp [State.record, State.slot]))
    simpa using hc.of_eq (w := { s.port q with vote := false }) rfl rfl id (fun e => absurd e (by simp)) id rfl id
  | @claimed p _ k key depth period auto c rest h _ _ _ hk =>
    refine hs.of_ports (fun q => by simp) (fun q => .inr fun i e h _ => by simpa [State.entry] using h) fun q => ?_
    by_cases e : q = p
    · subst e; exact .inl (.inl h)
    · refine .inr (State.produces_of_slot (k := k) (fun j e => by simp [State.record_claimed, e])
        (by simp [State.producer, hk]) ?_)
      rw [State.producer, State.record_claimed]
      simpa [claimedRecord, Record.producer] using Ne.symm e
  | @closed p _ k r =>
    refine hs.of_units (fun q hc => ?_) (fun q => .inr ?_) (fun q => .inr fun i e h _ => by simpa using h)
      fun q => .inr (State.produces_congr fun j => State.producer_closeUpdate s p k j) <;> rw [State.port_closeUpdate] <;> split
    · exact hc.of_eq rfl rfl id id id rfl id
    · exact hc
    · rfl
    · rfl
  | @freed _ _ k r _ hk hp =>
    refine hs.of_ports (fun q => by simp) (fun q => .inr fun i e h _ => by simpa using h) fun q => ?_
    by_cases e : r.producer = some q
    · exact .inl (.inl (hp q e).1)
    · exact .inr (State.produces_of_slot (k := k) (fun j e => by simp [e]) (by rwa [State.producer_of_record hk])
        (by simp [State.producer]))
  | @adopted p _ k r h _ hk ho =>
    refine hs.of_ports (fun q => by simp) (fun q => .inr fun i e h _ => h) fun q => ?_
    by_cases e : q = p
    · subst e; exact .inl (.inl h)
    · refine .inr (State.produces_of_slot (k := k) (fun j e => by simp [e]) ?_ ?_)
      · simp [State.producer_of_record hk, Record.producer_of_isOrphan ho]
      · rw [State.producer_of_record (State.record_setRecord s k _)]
        simpa [Record.adopted, Record.producer] using Ne.symm e
  | @opened p _ k r c _ _ hk =>
    exact (hs.setRecord (r' := r.withUpdate c { length := 0, overrun := false }) hk rfl).updatePort
      (fun hc => hc.of_eq rfl rfl id id id rfl id) (.inr rfl)
  | @committed p _ k r now tag _ m _ _ hk hp ht =>
    have mine : s.producer k = some p := by
      obtain hp | hp := hp
      · rw [State.producer_of_record hk, hp]
      · exact ((hu.port _).opened _ hp).2
    have entries : ∀ i e, t.entry i = some e → s.entry i = some e := fun i e h => by
      obtain ⟨r, c, u, -, -, rfl, -⟩ := State.commitSlot_some.mp ht
      rw [State.entry_endEntriesOn, Option.filter_eq_some_iff] at h
      simpa using h.1
    refine hs.of_units (fun q hc => ?_) (fun q => .inr ?_) (fun q => .inr fun i e h _ => entries i e h)
      fun q => .inr (State.produces_congr (State.producer_commitSlot mine ht)) <;> rw [State.commitSlot_port ht] <;> split
    · exact hc.of_eq rfl rfl id id id rfl id
    · exact hc
    · rfl
    · rfl
  | watched _ hk | overrun hk => exact hs.setRecord hk rfl
  | @staged p _ k r c u hk hc hl v =>
    have cell : PortLaw (s.setCell c { s.cell c with content := (s.cell c).content.stage u.length v }) :=
      hs.of_ports (fun q => by simp) (fun q => .inr fun i e h _ => h) fun q => .inr Iff.rfl
    exact cell.setRecord hk rfl
  | lapsed _ hk hr => exact hs.setRecord hk (by simp [Record.producer, hr])
  | @entered p _ k r q' i e h _ _ _ _ _ _ _ he =>
    refine hs.of_ports (fun q => by simp) (fun q => ?_) fun q => .inr Iff.rfl
    by_cases eq : q = p
    · subst eq; exact .inl (.inl h)
    · refine .inr fun j x hx hr => ?_
      rw [State.entry_setEntry_eq] at hx
      split at hx
      · obtain rfl := Option.some.inj hx
        exact absurd (hr.symm.trans he.1) eq
      · exact hx
  | entriesLost hv =>
    refine hs.of_ports (fun q => by simp) (fun q => .inr fun i e h _ => ?_) fun q => .inr Iff.rfl
    rw [State.entry_withEntries] at h
    obtain e | e := hv i
    · simp [e] at h
    · rwa [e] at h
  | orphaned hl hk hp => exact hs.orphaned hl hk hp
  | _ =>
    exact hs.of_ports (fun q => by simp) (fun q => .inr fun i e h _ => by simpa using h) fun q => .inr Iff.rfl

/-! ### What calls for a grant, and the grant -/

/-- A decision sets wake pending in DOZE alone (R86). -/
theorem Queue.wakePending_decideOne (dozing held : Bool) (now : Half) (q : Queue) (x : Handed)
    (h : (q.decideOne dozing held now x).wakePending = true) : q.wakePending = true ∨ dozing = true := by
  obtain ⟨-, e⟩ | ⟨ns, -, e⟩ | ⟨n, -, e⟩ | ⟨n, i, e⟩ | ⟨k, w, e⟩ := q.decideOne_cases dozing held now x <;> rw [e] at h
  · exact .inl h
  · simp only [Queue.append, Bool.or_eq_true, Bool.and_eq_true] at h
    exact h.imp id And.left
  · simp only [Queue.append, Bool.or_eq_true, Bool.and_eq_true] at h
    exact h.imp id And.left
  · exact .inl h
  · simp only [Queue.drop, Bool.or_eq_true, Bool.and_eq_true] at h
    exact h.imp id And.left

theorem Queue.wakePending_foldl_decideOne (dozing held : Bool) (now : Half) (xs : List Handed) (q : Queue)
    (h : (xs.foldl (Queue.decideOne dozing held now) q).wakePending = true) : q.wakePending = true ∨ dozing = true := by
  induction xs generalizing q with
  | nil => exact .inl h
  | cons x xs ih =>
    obtain h | h := ih _ h
    · exact q.wakePending_decideOne dozing held now x h
    · exact .inr h

/-- A port that has not joined is handed nothing, and one that has keeps its law (R81, R86). -/
theorem PortUnit.Clean.receive {u : PortUnit} (h : u.Clean) (p : Port) (now : Half) (j : Job) : (u.receive p now j).Clean := by
  by_cases joined : u.IsJoined
  · refine .of_joined (by simpa [PortUnit.IsJoined] using joined) (by simpa using h.accepting.mpr joined) fun e => ?_
    have := Queue.wakePending_foldl_decideOne _ _ _ _ _ e
    rw [PortUnit.receive_fields u p now j |>.1]
    obtain wake | doze := this
    · exact h.wake wake
    · exact beq_iff_eq.mp doze
  · have discarding : u.queue.accepting = false := Bool.eq_false_iff.mpr (mt h.accepting.mp joined)
    rwa [PortUnit.receive_discarding discarding]

theorem PortUnit.clean_left (u : PortUnit) : u.left.Clean where
  accepting := by simp [PortUnit.left, PortUnit.IsJoined, Queue.emptied]
  wake e := absurd e (by simp [PortUnit.left, Queue.emptied])
  vote e := absurd e (by simp [PortUnit.left])
  cleared _ := ⟨rfl, rfl, rfl⟩

theorem PortLaw.left (hs : PortLaw s) : PortLaw (s.leftBy p) := by
  generalize hu : (s.leftUnit p).cancelFetch (s.port p).fetch = u
  have left : s.leftBy p = u.settleLeaving p := by rw [State.leftBy_eq, hu]
  have port : ∀ q, u.port q = if q = p then (s.port q).left else s.port q := fun q => by
    subst hu; rw [State.port_cancelFetch, State.port_leftUnit]
  have entry : ∀ i e, u.entry i = some e → s.entry i = some e ∧ e.requester ≠ p := fun i e h => by
    subst hu
    rw [State.entry_cancelFetch, State.entry_leftUnit, Option.filter_eq_some_iff] at h
    simpa using h
  have producer : ∀ k, u.producer k = s.producer k := fun k => by
    subst hu
    rw [((s.leftUnit p).updateOf_cancelFetch _ k).2, State.producer, State.record_leftUnit]
    unfold State.producer
    split_ifs
    · cases s.record k <;> simp
    · rfl
  rw [left]
  refine portLaw_iff.mpr fun q => ?_
  obtain ⟨clean, placed⟩ := portLaw_iff.mp hs q
  by_cases e : q = p
  · subst e
    have mine : u.port q = (s.port q).left := by simp [port]
    exact ⟨.settleLeaving (by rw [mine]; exact PortUnit.clean_left _),
      .settleLeaving (by rw [mine]; rfl) (State.requestCount_eq_zero.mpr fun i x h => (entry i x h).2)⟩
  · have other : u.port q = s.port q := by simp [port, e]
    refine ⟨.settleLeaving (by rwa [other]), placed.of_same ?_ (fun i x h _ => (entry i x (by simpa using h)).1) ?_⟩
    · rw [State.port_settleLeaving, other]
      simp [e]
    · exact State.produces_congr fun k => (State.producer_congr (u.record_settleLeaving p k)).trans (producer k)

theorem PortLaw.stir (h : Stir a s t) (hs : PortLaw s) : PortLaw t := by
  cases h with
  | pushed => exact hs.of_ports (fun q => by simp) (fun q => .inr fun i e h _ => h) fun q => .inr Iff.rfl
  | @fetched p _ k r c h =>
    have pinned : PortLaw (s.pinCell c) :=
      hs.of_ports (fun q => by simp) (fun q => .inr fun i e h _ => by simpa using h)
        fun q => .inr (State.produces_congr fun k => State.producer_congr (by simp))
    refine pinned.updatePort (fun hc => ?_) (.inr rfl)
    have active : ((s.pinCell c).port p).state = .active := by simpa using h
    exact .of_joined (.inl active) (hc.accepting.mpr (.inl active)) hc.wake
  | left => exact hs.left
  | @distributed _ j rest =>
    refine hs.of_units (fun q hc => ?_) (fun q => .inr (by simp)) (fun q => .inr fun i e h _ => h)
      fun q => .inr Iff.rfl
    rw [State.port_mk, State.port_distribute]
    exact hc.receive q _ j
  | @copied p c _ hp hf =>
    have fetching : PortLaw (s.updatePort p fun u => u.delivered (s.cell c).content) := by
      refine hs.updatePort (fun hc => ?_) (.inr rfl)
      have joined : (s.port p).IsJoined := not_not.mp fun hj => by
        have idle := (hc.cleared hj).2.2
        simp [hf] at idle
      exact .of_joined joined (hc.accepting.mpr joined) hc.wake
    refine fetching.of_ports (fun q => by simp) (fun q => .inr fun i e h _ => by simpa using h)
      fun q => .inr (State.produces_congr fun k => ?_)
    exact ((s.updatePort p fun u => u.delivered (s.cell c).content).updateOf_unpinCell c k).2

theorem PortLaw.grant (hs : PortLaw s) : PortLaw s.grant := by
  refine hs.of_units (fun q hc => ?_) (fun q => .inr (by simp)) (fun q => .inr fun i e h _ => by simpa using h)
    fun q => .inr (State.produces_congr fun k => State.producer_congr (by simp))
  obtain e | e := s.port_grant q <;> rw [e]
  · exact hc
  · exact hc.of_eq rfl rfl id id id rfl fun e => by simp [e, FetchState.granted]

theorem PortLaw.resetWith (s : State) (b : Bool) : PortLaw (s.resetWith b) := by
  refine portLaw_iff.mpr fun q => ⟨?_, fun _ => ?_, fun _ => ?_, fun e => ?_⟩
  · rw [State.port_resetWith]
    refine ⟨?_, fun e => absurd e ?_, fun e => absurd e ?_, fun _ => ⟨rfl, rfl, rfl⟩⟩ <;>
      simp [PortUnit.afterReset, PortUnit.reset, PortUnit.IsJoined]
  · exact State.requestCount_eq_zero.mpr fun i e h => by simp at h
  · rintro ⟨k, hk⟩
    simp [State.producer] at hk
  · rw [State.port_resetWith] at e
    exact absurd e (by simp [PortUnit.afterReset, PortUnit.reset])

/-- Settles O56: a port that leaves is cleaned up, and what a port takes up it takes up joined. -/
theorem portStatesStayClean : Obligations.PortStatesStayClean := fun s t hu hs h =>
  (step_keeps (L := fun s => UpdateLaw s ∧ PortLaw s)
    (fun _ _ ⟨hu, hs⟩ => ⟨hu.of_slots (fun _ => ⟨rfl, rfl⟩) fun q => by simp,
      hs.of_ports (fun q => by simp) (fun _ => .inr fun _ _ h _ => h) fun _ => .inr Iff.rfl⟩)
    (fun s b => ⟨.resetWith s b, .resetWith s b⟩) (fun _ _ _ h ⟨hu, hs⟩ => ⟨hu.move h, hs.move h hu⟩)
    (fun _ _ _ h ⟨hu, hs⟩ => ⟨hu.stir h, hs.stir h⟩) (fun _ ⟨hu, hs⟩ => ⟨hu.grant, hs.grant⟩) ⟨hu, hs⟩ h).2

end Sys2Proof.Machine
end

section
/-! PROOF. What no command does: change the settings in RUN (R160), write a cell that is listed or pinned (R8, R94), or
change another port's window (R166). -/

namespace Sys2Proof.Machine

variable {opens : Prop} {a : Option Port} {p q : Port} {s t u : State}

/-! ### Settings (R160) -/

/-- The state is in RUN with the settings and the generation of an earlier one (R160). -/
structure SettingsKept (s t : State) : Prop where
  mode : t.mode = .run
  tickPeriod : t.tickPeriod = s.tickPeriod
  answerTimeout : t.answerTimeout = s.answerTimeout
  orphanHold : t.orphanHold = s.orphanHold
  generation : t.generation = s.generation
  queue : ∀ p, (t.port p).queue.depth = (s.port p).queue.depth ∧ (t.port p).queue.threshold = (s.port p).queue.threshold

theorem SettingsKept.updatePort (h : SettingsKept s u) {f : PortUnit → PortUnit}
    (depth : (f (u.port p)).queue.depth = (u.port p).queue.depth)
    (threshold : (f (u.port p)).queue.threshold = (u.port p).queue.threshold) : SettingsKept s (u.updatePort p f) := by
  refine ⟨by simpa using h.mode, by simpa using h.tickPeriod, by simpa using h.answerTimeout,
    by simpa using h.orphanHold, by simpa using h.generation, fun q => ?_⟩
  rw [State.port_updatePort_eq]
  split
  · rename_i e
    subst e
    rw [depth, threshold]
    exact h.queue q
  · exact h.queue q

/-- Settings stand where the mode, the shared settings and every queue's are as they were. -/
theorem SettingsKept.of_same (h : SettingsKept s u) (mode : t.mode = u.mode)
    (shared : t.tickPeriod = u.tickPeriod ∧ t.answerTimeout = u.answerTimeout ∧ t.orphanHold = u.orphanHold ∧
      t.generation = u.generation) (queue : ∀ q, (t.port q).queue = (u.port q).queue) : SettingsKept s t := by
  obtain ⟨tickPeriod, answerTimeout, orphanHold, generation⟩ := shared
  exact ⟨mode.trans h.mode, tickPeriod.trans h.tickPeriod, answerTimeout.trans h.answerTimeout,
    orphanHold.trans h.orphanHold, generation.trans h.generation, fun q => by rw [queue]; exact h.queue q⟩

theorem SettingsKept.move (h : Move opens a u t) (hs : SettingsKept s u) : SettingsKept s t := by
  have run := hs.mode
  cases h with
  | touched h => exact hs.updatePort (f := fun _ => _) h.depth h.threshold
  | joined | dozed | filtersSet | irqSet | pointed | grouped => exact hs.updatePort rfl rfl
  | voted _ hm | running hm | exchangeSet hm | generationRaised hm | queueSet hm => simp [run] at hm
  | committed _ _ _ _ ht =>
    obtain ⟨-, -, -, mode, period, timeout, hold, generation, -⟩ := State.commitSlot_fields ht
    exact hs.of_same mode ⟨period, timeout, hold, generation⟩ fun q => by rw [State.commitSlot_port ht]; split <;> rfl
  | closed => exact hs.of_same (by simp) (by simp) fun q => by rw [State.port_closeUpdate]; split <;> rfl
  | opened =>
    exact hs.of_same (by simp) (by simp) fun q => by
      simp only [State.port_updatePort_eq, State.port_setRecord]; split <;> rfl
  | orphaned => exact hs.of_same (by simp) (by simp) fun q => by simp [State.orphaned]
  | _ => exact hs.of_same (by simp) (by simp) fun q => by simp

theorem SettingsKept.stir (h : Stir a u t) (hs : SettingsKept s u) : SettingsKept s t := by
  cases h with
  | pushed => exact hs.of_same rfl ⟨rfl, rfl, rfl, rfl⟩ fun q => by simp
  | fetched =>
    exact hs.of_same (by simp) (by simp) fun q => by
      simp only [State.port_updatePort_eq, State.port_pinCell]; split <;> rfl
  | @left p =>
    refine ⟨by simpa [State.leftBy_eq] using hs.mode, by simpa [State.leftBy_eq] using hs.tickPeriod,
      by simpa [State.leftBy_eq] using hs.answerTimeout, by simpa [State.leftBy_eq] using hs.orphanHold,
      by simpa [State.leftBy_eq] using hs.generation, fun q => ?_⟩
    have unit : ((u.leftBy p).port q).queue = ((u.leftUnit p).port q).queue := by simp [State.leftBy_eq]
    rw [unit, State.port_leftUnit]
    split <;> exact hs.queue q
  | distributed =>
    refine ⟨hs.mode, hs.tickPeriod, hs.answerTimeout, hs.orphanHold, hs.generation, fun q => ?_⟩
    simpa using hs.queue q
  | copied =>
    exact hs.of_same (by simp) (by simp) fun q => by
      simp only [State.port_mk, State.port_unpinCell, State.port_updatePort_eq]; split <;> rfl

/-- Settles O58: every move that changes the mode, a setting or a queue's depth or threshold is made in SETUP. -/
theorem settingsStandInRun : Obligations.SettingsStandInRun := by
  intro i s t hm hi h
  obtain ⟨a, effect⟩ := exec_effect (opens := True) hi (fun _ => trivial) h
  have kept : SettingsKept s t := effect.keeps (L := SettingsKept s) (fun _ _ h hs => hs.move h)
    (fun _ _ h hs => hs.stir h) (fun _ hs => hs.of_same (by simp) (by simp) fun q => by simp)
    ⟨hm, rfl, rfl, rfl, rfl, fun _ => ⟨rfl, rfl⟩⟩
  exact ⟨kept.mode, kept.tickPeriod, kept.answerTimeout, kept.orphanHold, kept.generation, kept.queue⟩

/-! ### Cells that are not written (R8, R94) -/

/-- A cell is the staging cell of an open update: the only cell that is written (R32, R39). -/
def State.StagesInto (s : State) (c : CellNo) : Prop :=
  ∃ k r x, s.record k = some r ∧ r.next = .staging c (some x)

/-- A cell has its content of an earlier state, and no open update writes into it. -/
structure Unwritten (s : State) (c : CellNo) (t : State) : Prop where
  content : (t.cell c).content = (s.cell c).content
  closed : ¬ t.StagesInto c

/-- A pinned cell is no staging cell (R8), and no version is one (R10). -/
theorem State.not_stagesInto (hc : CellLaw s) (hp : PinLaw s) {c : CellNo}
    (h : 0 < (s.cell c).pins ∨ ∃ k, ∃ r ∈ s.record k, c ∈ r.versions) : ¬ s.StagesInto c := by
  rintro ⟨k, r, x, hk, hn⟩
  obtain h | ⟨j, r', hj, hv⟩ := h
  · have := (pinLaw_iff.mp hp).2.staging k r hk c _ hn
    omega
  · have atk : c ∈ s.cellsAt k := by rw [State.cellsAt_of_record hk]; simp [Record.cells, hn, NextCell.cell]
    have atj : c ∈ s.cellsAt j := by rw [State.cellsAt_of_record hj]; simp [Record.cells, hv]
    obtain rfl := hc.slot_eq atj atk
    obtain rfl := Option.some.inj (hk.symm.trans hj)
    exact (hc.cells_distinct hk).1 (by simpa [hn, NextCell.cell] using hv)

/-- A record replaced by one that stages into a cell only where the record before did. -/
theorem State.not_stagesInto_setRecord {c : CellNo} (h : ¬ s.StagesInto c) {k : SlotNo} {r : Option Record}
    (hr : ∀ r', r = some r' → ∀ x, r'.next = .staging c (some x) →
      ∃ r₀ y, s.record k = some r₀ ∧ r₀.next = .staging c (some y)) : ¬ (s.setRecord k r).StagesInto c := by
  rintro ⟨j, r', x, hj, hn⟩
  rw [State.record_setRecord_eq] at hj
  split at hj
  · obtain ⟨r₀, y, hk, hn⟩ := hr r' hj x hn
    exact h ⟨k, r₀, y, hk, hn⟩
  · exact h ⟨j, r', x, hj, hn⟩

theorem State.stagesInto_congr {c : CellNo} (h : t.slots = s.slots) : t.StagesInto c ↔ s.StagesInto c := by
  simp only [State.StagesInto, State.record_of_slots h]

theorem Unwritten.of_same {c : CellNo} (hs : Unwritten s c u) (slots : t.slots = u.slots)
    (content : (t.cell c).content = (u.cell c).content) : Unwritten s c t :=
  ⟨content.trans hs.content, by rw [State.stagesInto_congr slots]; exact hs.closed⟩

theorem Unwritten.setRecord {c : CellNo} (hs : Unwritten s c u) {k : SlotNo} {r : Option Record}
    (hr : ∀ r', r = some r' → ∀ x, r'.next = .staging c (some x) →
      ∃ r₀ y, u.record k = some r₀ ∧ r₀.next = .staging c (some y)) : Unwritten s c (u.setRecord k r) :=
  ⟨hs.content, State.not_stagesInto_setRecord hs.closed hr⟩

/-- A record with its update closed stages into no cell. -/
theorem Record.next_ne_of_closed {r : Record} (h : r.openUpdate = none) (c : CellNo) (x : Update) :
    r.next ≠ .staging c (some x) := by
  intro e
  simp [Record.openUpdate, e] at h

theorem Unwritten.closeOnSlot {c : CellNo} (hs : Unwritten s c u) (k : SlotNo) : Unwritten s c (u.closeOnSlot k) := by
  unfold State.closeOnSlot
  split
  · exact hs
  · refine hs.setRecord fun r' e x hn => ?_
    obtain rfl := Option.some.inj e
    exact absurd hn (Record.next_ne_of_closed (by simp) c x)

theorem Unwritten.routeUnpinned {c : CellNo} (hs : Unwritten s c u) (d : CellNo) : Unwritten s c (u.routeUnpinned d) := by
  refine ⟨by simpa using hs.content, ?_⟩
  rintro ⟨k, r, x, hk, hn⟩
  obtain h | ⟨r', -, -, h⟩ := u.record_routeUnpinned d k <;> rw [h] at hk
  · exact hs.closed ⟨k, r, x, hk, hn⟩
  · obtain rfl := Option.some.inj hk
    simp at hn

/-- A commit writes the staging cell of the update that it closes. -/
theorem Unwritten.commitSlot {c : CellNo} (hs : Unwritten s c u) {now : Time} {tag : Option GroupTag} {k : SlotNo}
    {m : Published} (h : u.commitSlot p now tag k = some (t, m)) : Unwritten s c t := by
  obtain ⟨r, d, x, -, hk, hn, -, cell⟩ := State.commitSlot_record h
  refine ⟨?_, ?_⟩
  · rw [cell, if_neg]
    · exact hs.content
    · rintro rfl
      exact hs.closed ⟨k, r, x, hk, hn⟩
  · rintro ⟨j, r', y, hj, hn'⟩
    by_cases e : j = k
    · subst e
      exact Record.next_ne_of_closed (State.updateClosed_commitSlot h (.inl rfl) r' hj) c y hn'
    · exact hs.closed ⟨j, r', y, by rwa [← (State.commitSlot_others h).1 j e], hn'⟩

/-- Where no update is opened, a cell that no update writes into stays so. -/
theorem Unwritten.move {c : CellNo} (h : Move opens a u t) (ho : ¬ opens) (hs : Unwritten s c u) : Unwritten s c t := by
  cases h with
  | opened _ _ _ _ _ _ h => exact absurd h ho
  | @claimed p _ k key depth period auto d rest =>
    refine ⟨by simpa [State.cell] using hs.content, ?_⟩
    rintro ⟨j, r, x, hj, hn⟩
    rw [State.record_claimed] at hj
    split at hj
    · obtain rfl := Option.some.inj hj
      simp [claimedRecord] at hn
    · exact hs.closed ⟨j, r, x, hj, hn⟩
  | @closed p _ k r => exact (hs.closeOnSlot k).of_same (by simp [State.closeUpdate]) (by simp)
  | @freed _ _ k r =>
    refine ⟨by simpa using hs.content, ?_⟩
    rintro ⟨j, r, x, hj, hn⟩
    rw [State.record_freeSlot] at hj
    split at hj
    · exact absurd hj (by simp)
    · exact hs.closed ⟨j, r, x, hj, hn⟩
  | adopted _ _ hk | watched _ hk | lapsed _ hk =>
    refine hs.setRecord fun r' e x hn => ⟨_, x, hk, ?_⟩
    obtain rfl := Option.some.inj e
    exact hn
  | committed _ _ _ _ ht => exact hs.commitSlot ht
  | @staged p _ k r d x hk hn hl v =>
    have other : c ≠ d := by
      rintro rfl
      exact hs.closed ⟨k, r, x, hk, hn⟩
    have written : Unwritten s c (u.setCell d { u.cell d with content := (u.cell d).content.stage x.length v }) :=
      hs.of_same rfl (by simp [other])
    refine written.setRecord fun r' e y hn' => ?_
    obtain rfl := Option.some.inj e
    simp [Ne.symm other] at hn'
  | overrun hk hn =>
    refine hs.setRecord fun r' e y hn' => ?_
    obtain rfl := Option.some.inj e
    simp only [NextCell.staging.injEq] at hn'
    obtain ⟨rfl, -⟩ := hn'
    exact ⟨_, _, hk, hn⟩
  | @orphaned p _ k r _ hk =>
    have orphan : Unwritten s c (u.setRecord k (some { r with life := .orphaned u.etc })) := by
      refine hs.setRecord fun r' e x hn => ⟨_, x, hk, ?_⟩
      obtain rfl := Option.some.inj e
      exact hn
    exact orphan.of_same (by simp) (by simp [State.cell])
  | _ => exact hs.of_same (by simp) (by simp [State.cell])

theorem Unwritten.effect {c : CellNo} (h : Effect opens a s t) (ho : ¬ opens) (hs : ¬ s.StagesInto c) : Unwritten s c t := by
  have same : ∀ u v : State, v.slots = u.slots → v.free = u.free → v.detached = u.detached →
      (∀ d, (v.cell d).content = (u.cell d).content) → Unwritten s c u → Unwritten s c v :=
    fun _ _ slots _ _ contents hu => hu.of_same slots (contents c)
  exact h.keeps (fun _ _ h hu => hu.move h ho)
    (fun _ _ h hu => h.keeps same (fun _ k hu => hu.closeOnSlot k) (fun _ d hu => hu.routeUnpinned d) hu)
    (fun _ hu => State.grant_keeps same hu) ⟨rfl, hs⟩

/-- OPEN_UPDATE itself writes no cell (R30). -/
theorem State.cells_openUpdate (s : State) (p : Port) (c : CellNo) :
    (s.issue p .openUpdate (State.openUpdateBody p)).cell c = s.cell c := by
  obtain h | ⟨-, ⟨x, -, h⟩ | ⟨-, h⟩⟩ := s.issue_cases p .openUpdate (State.openUpdateBody p) <;> rw [h]
  · simp
  · cases hb : State.openUpdateBody p (s.handCommand p) with
    | refuse x => simp [State.conclude]
    | take t d =>
      unfold State.openUpdateBody at hb
      simp only at hb
      repeat' split at hb
      all_goals try exact absurd hb Reply.refuse_ne_take
      obtain ⟨rfl, -⟩ := Reply.take.inj hb
      simp [State.conclude]

/-- Settles O59: only an open update's staging cell is written, and no listed or pinned cell is one. -/
theorem pinnedAndListedCellsAreNotWritten : Obligations.PinnedAndListedCellsAreNotWritten := by
  intro i c s t hc hp hi h hcell
  cases ho : opensUpdate i with
  | false =>
    obtain ⟨a, effect⟩ := exec_effect (opens := False) hi (fun e => by simp [ho] at e) h
    exact (Unwritten.effect effect id (s.not_stagesInto hc hp hcell)).content
  | true =>
    cases i <;> simp only [opensUpdate, Bool.false_eq_true] at ho
    case openUpdate p v =>
      obtain rfl := Host.Outcome.next.inj h
      rw [State.cells_openUpdate]

/-! ### The other ports' windows (R101, R160, R166) -/

theorem FetchKept.refl (f : FetchState) : FetchKept f f := .inl rfl

theorem FetchKept.trans {f g h : FetchState} (hfg : FetchKept f g) (hgh : FetchKept g h) : FetchKept f h := by
  obtain rfl | ⟨x, c, rfl, rfl⟩ := hfg
  · exact hgh
  · obtain rfl | ⟨y, d, e, rfl⟩ := hgh
    · exact .inr ⟨x, c, rfl, rfl⟩
    · cases e
      exact .inr ⟨x, c, rfl, rfl⟩

theorem FetchKept.granted (f : FetchState) : FetchKept f f.granted := by
  cases f with
  | inFlight x c => exact .inr ⟨x, c, rfl, rfl⟩
  | _ => exact .inl rfl

/-- Of a port's unit only its vote, and its copy phase by a grant, have changed. -/
def PortUnit.WindowKept (u w : PortUnit) : Prop :=
  { w with vote := u.vote, fetch := u.fetch } = u ∧ FetchKept u.fetch w.fetch

theorem PortUnit.WindowKept.of_eq {u w x : PortUnit} (h : u.WindowKept w) (e : x = { w with vote := x.vote, fetch := x.fetch })
    (fetch : FetchKept w.fetch x.fetch) : u.WindowKept x := by
  obtain ⟨same, kept⟩ := h
  exact ⟨by rw [e, ← same], kept.trans fetch⟩

/-- A move of a port leaves the other ports but for their votes. -/
theorem Move.otherPort (h : Move opens (some p) s t) (hq : q ≠ p) :
    t.port q = { s.port q with vote := (t.port q).vote } := by
  cases h with
  | committed _ _ _ _ ht => rw [State.commitSlot_port ht, if_neg hq]
  | _ => simp [hq]

/-- What a port's command calls for a grant by leaves the other ports. -/
theorem Stir.otherPort (h : Stir (some p) s t) (hq : q ≠ p) : t.port q = s.port q := by
  cases h with
  | left => rw [State.leftBy_eq, State.port_settleLeaving, State.port_cancelFetch, State.port_leftUnit]; simp [hq]
  | _ => simp [hq]

/-- Settles O60: a move of one port changes no other port but its vote, and a grant only a copy phase. -/
theorem onePortsBytesLeaveTheOthersWindow : Obligations.OnePortsBytesLeaveTheOthersWindow := by
  intro i p q s t hi hq h
  have effect := exec_byte_effect (opens := True) hi (fun _ => trivial) h
  refine effect.keeps (L := fun t => (s.port q).WindowKept (t.port q)) (fun u v h hu => ?_) (fun u v h hu => ?_)
    (fun u hu => ?_) ⟨rfl, .refl _⟩
  · have e := h.otherPort hq
    have fetch : (v.port q).fetch = (u.port q).fetch := by rw [e]
    exact hu.of_eq (by rw [fetch]; exact e) (fetch ▸ .refl _)
  · rwa [h.otherPort hq]
  · obtain e | e := u.port_grant q <;> rw [e]
    · exact hu
    · exact hu.of_eq rfl (.granted _)

end Sys2Proof.Machine
end

section
/-! PROOF. The queue of commands, the clock, the resets and pins, and a sound reset state (R26, R104, R105, R149, R165). -/

namespace Sys2Proof.Machine

variable {opens : Prop} {a : Option Port} {p q : Port} {s t u : State}

/-- Settles O1: a step takes the command from the front. -/
theorem stepTakesTheFrontCommand : Obligations.StepTakesTheFrontCommand := fun _ _ _ => rfl

/-- Settles O2: the clock stands in SETUP, and in RUN a cycle counts or is the tick. -/
theorem ticksAndClockCycles : Obligations.TicksAndClockCycles := by
  have tick : ∀ s : State, exec .tick s = .next s.tickNow := fun _ => rfl
  have idle : ∀ s : State, s.pending = [] → step s = .next s.clkinCycle := fun s h => by simp [step, h]
  refine ⟨fun s => ⟨fun hm => ?_, fun hm => ?_⟩, fun s hp => ⟨fun hm => ?_, fun hm hc => ?_, fun hm hc => ?_⟩, rfl⟩
  · simp [tick, State.tickNow, hm]
  · simp [tick, State.tickNow, hm]
  · simp [idle s hp, State.clkinCycle, hm]
  · simp [idle s hp, State.clkinCycle, hm, hc]
  · simp [idle s hp, State.clkinCycle, State.tickNow, hm, not_lt.mpr hc]

/-! ### The commands that wait (log 12) -/

/-- Every command has an effect (log 15). -/
theorem exec_answers (i : Instr) (s : State) : ∃ t, exec i s = .next t := by
  cases i <;> exact ⟨_, rfl⟩

theorem Move.pending (h : Move opens a s t) : t.pending = s.pending := by
  cases h with
  | committed _ _ _ _ ht => exact (State.commitSlot_fields ht).1
  | _ => simp [State.withEntries]

theorem Stir.pending (h : Stir a s t) : t.pending = s.pending := by
  cases h <;> simp [State.leftBy_eq]

theorem State.pending_resetWith (s : State) (b : Bool) : (s.resetWith b).pending = s.pending := rfl

/-- Settles O3: no move changes the queue of commands. -/
theorem everyCommandAnswers : Obligations.EveryCommandAnswers := by
  intro i s
  obtain ⟨t, h⟩ := exec_answers i s
  refine ⟨t, h, ?_⟩
  cases hi : i.resetsPart with
  | false =>
    obtain ⟨a, effect⟩ := exec_effect (opens := True) hi (fun _ => trivial) h
    exact effect.keeps (L := fun t => t.pending = s.pending) (fun _ _ h hu => h.pending.trans hu)
      (fun _ _ h hu => h.pending.trans hu) (fun u hu => by simpa using hu) rfl
  | true =>
    obtain rfl | ⟨b, rfl⟩ := exec_reset hi h
    · rfl
    · exact s.pending_resetWith b

/-! ### Resets and pins (R149, R165) -/

theorem State.resetPart_eq_resetWith (s : State) : s.resetPart = s.resetWith s.resetPin := by
  have pin : s.resetPart.resetPin = s.resetPin := rfl
  unfold State.resetWith
  rw [← pin]

theorem exec_powerOn (s : State) : exec .powerOn s = .next (s.resetWith s.resetPin) := by
  rw [← State.resetPart_eq_resetWith]
  rfl

theorem exec_resetAssert (h : s.resetPin = false) : exec .resetAssert s = .next (s.resetWith true) := by
  have asserted : exec .resetAssert s = .next (if s.resetPin then s else s.resetWith true) := rfl
  rw [asserted, h]
  simp

/-- What the reset of the part gives the fields that its law of cells, slots and clocks does not name (R159, R164). -/
theorem State.resetWith_settings (s : State) (b : Bool) :
    (s.resetWith b).generation = 1 ∧ (s.resetWith b).tickPeriod = .ms1 ∧ (s.resetWith b).answerTimeout = 100 ∧
      (s.resetWith b).orphanHold = 0 ∧ (s.resetWith b).lastGranted = .du ∧ (s.resetWith b).resetPin = b ∧
      (s.resetWith b).ready = false :=
  ⟨rfl, rfl, rfl, rfl, rfl, rfl, rfl⟩

theorem State.incarnation_resetWith (s : State) (b : Bool) (k : SlotNo) : ((s.resetWith b).slot k).incarnation = 0 := by
  have slots : (s.resetWith b).slots = Vector.replicate 64 .free := rfl
  simp [State.slot, slots, Slot.free]

/-- Settles O4: both commands leave the reset of the part, which gives each block its reset values. -/
theorem resetGivesTheResetState : Obligations.ResetGivesTheResetState := by
  intro i s hi
  obtain ⟨b, pin, h⟩ : ∃ b, (b = if i = .powerOn then s.resetPin else true) ∧ exec i s = .next (s.resetWith b) := by
    obtain rfl | ⟨rfl, released⟩ := hi
    · exact ⟨_, by simp, exec_powerOn s⟩
    · exact ⟨_, by simp, exec_resetAssert released⟩
  obtain ⟨free, detached, jobs, path, mode, etc, prescaler, scan⟩ := s.resetWith_fields b
  obtain ⟨generation, period, timeout, hold, last, resetPin, ready⟩ := s.resetWith_settings b
  refine ⟨s.resetWith b, h, ⟨mode, generation, period, timeout, hold⟩,
    fun k => ⟨by simp, s.incarnation_resetWith b k⟩, ⟨fun c => ⟨?_, by simp [Cell.blank]⟩, ?_, detached⟩, ⟨jobs, path, last⟩,
    fun e => by simp, ⟨etc, prescaler, scan⟩, resetPin.trans pin, ready, fun q => by rw [State.port_resetWith]; rfl⟩
  · rw [free]
    exact List.mem_finRange c
  · rw [free, List.length_finRange]

theorem rdataOf_nil : rdataOf [] = Vector.replicate 10 0 := rfl

/-- Settles O5: what a pin's level itself does. -/
theorem releasesAndPrstxOutsideTheExchange : Obligations.ReleasesAndPrstxOutsideTheExchange := by
  have ready : ∀ s : State, exec .portsReady s = .next (if s.resetPin then s else { s with ready := true }) := fun _ => rfl
  refine ⟨fun s => ⟨rfl, fun h => by simp [ready, h], fun h => by simp [ready, h]⟩,
    fun p s => ⟨rfl, fun hpin hj => ?_⟩, fun x => ?_⟩
  · have asserted : exec (.prstxAssert p) s = .next (if (s.port p).prst then s
        else match (s.port p).state with
          | .active => (s.updatePort p PortUnit.prstAsserted).leavingEntry p
          | .doze => (s.updatePort p PortUnit.prstAsserted).leavingEntry p
          | .leaving => s.updatePort p PortUnit.prstAsserted
          | .offline => s.updatePort p PortUnit.prstAsserted) := rfl
    have unit : s.updatePort p PortUnit.prstAsserted = s.updatePort p fun u =>
        { u with prst := true, transaction := u.transaction.ended, result := .none,
                 rdata := Vector.replicate 10 0 } := rfl
    rw [asserted, hpin, ← unit]
    cases hs : (s.port p).state with
    | active => exact absurd (.inl hs) hj
    | doze => exact absurd (.inr hs) hj
    | leaving => simp
    | offline => simp
  · cases x <;> simp [Transaction.ended]

/-- A read byte or a write byte completes only while the port's pins are decoded (R149). -/
theorem State.not_decodes (h : s.resetPin = true ∨ (s.port p).prst = true) : s.decodes p = false := by
  obtain h | h := h <;> simp [State.decodes, h]

/-- Settles O7: each byte of a port first asks whether its pins are decoded. -/
theorem ignoredPinsTakeNoByte : Obligations.IgnoredPinsTakeNoByte := by
  intro i p s hi hpin
  have dead := State.not_decodes hpin
  have issue : ∀ c body, s.issue p c body = s := fun c body =>
    State.issue_of_not body (by simp [State.writesAt, dead])
  have reads : ∀ row, s.readByteOf p row = s := fun row => by simp [State.readByteOf, dead]
  have writes : ∀ row f, s.writeByteOf p row f = s := fun row f => by simp [State.writeByteOf, dead]
  have address : ∀ b, exec (.addressByte p b) s =
      .next (if s.decodes p ∧ (s.port p).transaction = .address then
        if b.getLsbD 7 then s.startByte p (b.extractLsb' 0 7)
        else s.updatePort p fun u => { u with transaction := .write (b.extractLsb' 0 7) }
      else s) := fun _ => rfl
  cases i <;> simp only [Instr.byteOf, reduceCtorEq, Option.some.injEq] at hi <;> subst hi
  case addressByte b => simp [address, dead]
  case argWrite | windowWriteIgnored | stageData => exact congrArg Host.Outcome.next (writes _ _)
  case notice | readData | readHdr | statusRead | timeCapture | genCapture => exact congrArg Host.Outcome.next (reads _)
  all_goals exact congrArg Host.Outcome.next (issue _ _)

/-- The reset state is its own reset. -/
theorem State.resetWith_reset : State.reset.resetWith false = State.reset := by
  have unit : ∀ q, State.reset.port q = .reset := fun q => by cases q <;> rfl
  have fields : ∀ q, (State.reset.resetWith false).port q = State.reset.port q := fun q => by
    rw [State.port_resetWith, unit]
    rfl
  have free : (State.reset.resetWith false).free = State.reset.free := by
    rw [(State.reset.resetWith_fields false).1, State.reset]
  exact State.ext_ports fields rfl rfl rfl rfl rfl rfl rfl rfl rfl rfl free rfl rfl rfl rfl rfl rfl rfl rfl

/-- Settles O47: the reset state is the reset of the part made on itself, which every law allows. -/
theorem resetIsSound : Obligations.ResetIsSound := by
  rw [Obligations.ResetIsSound, ← State.resetWith_reset]
  exact ⟨.resetWith _ _, .resetWith _ _, .resetWith _ _, .resetWith _ _,
    fun i j x y hx => by simp at hx, .resetWith _ _, .resetWith _ _, .resetWith _ _, .resetWith _ _, .resetWith _ _⟩

end Sys2Proof.Machine
end

section
/-! PROOF. The bytes of a port's transaction: chip-select, addresses, arguments, staging, notices and read bytes (R32 to
R34, R77, R78, R96, R97, R108, R149, R166 to R168, R171, R172, R174 to R177). -/

namespace Sys2Proof.Machine

variable {p q : Port} {s t : State}

/-! ### A byte that completes -/

theorem State.decodes_of_released (hr : s.resetPin = false) (hp : (s.port p).prst = false) : s.decodes p = true := by
  simp [State.decodes, hr, hp]

/-- A write byte that completes has the effect of its row, and the address advances (R166). -/
theorem State.WritesAt.writeByteOf {x : Addr} (h : s.WritesAt p x) (f : Addr → State → State) :
    s.writeByteOf p (writeRow x) f = (f x s).updatePort p fun u => { u with transaction := .write (nextAddress x) } := by
  obtain ⟨hr, hp, ht⟩ := h
  unfold State.writeByteOf
  rw [if_pos (State.decodes_of_released hr hp), ht]
  simp

/-- A read byte that completes does so by the command of its row (R166). -/
theorem State.ReadsAt.readByteOf {x : Addr} {b : ReadByte} (h : s.ReadsAt p x b) :
    s.readByteOf p (readRow x) = s.completeByte p x b := by
  obtain ⟨hr, hp, ht⟩ := h
  unfold State.readByteOf
  rw [if_pos (State.decodes_of_released hr hp), ht]
  simp

/-- Fixing the byte at an address opens it with the captures tied to it. -/
theorem State.startByte_eq (s : State) (p : Port) (x : Addr) : s.startByte p x = s.opensByte p x := by
  rw [State.startByte, State.fixByte_state, State.updatePort_updatePort]
  rfl

/-- A byte outside a NOTICE group has its effect, and the byte of the next address opens. -/
theorem State.completeByte_of_last {x : Addr} {b : ReadByte} (h : b.nextInGroup = none) :
    s.completeByte p x b = State.opensByte (s.updatePort p fun u => u.completed b) p (nextAddress x) := by
  unfold State.completeByte
  rw [h, ← State.startByte_eq]

/-- A byte with no effect only opens the next. -/
theorem State.completeByte_of_none {x : Addr} {b : ReadByte} (h : b.effect = .none) :
    s.completeByte p x b = s.opensByte p (nextAddress x) := by
  have unit : (s.updatePort p fun u => u.completed b) = s := by
    simp [PortUnit.completed, h, State.updatePort]
  rw [State.completeByte_of_last (by simp [ReadByte.nextInGroup, h]), unit]

/-! ### Chip-select and the address byte -/

theorem State.updatePort_opensByte_idle (s : State) (p : Port) (x : Addr) :
    ((s.opensByte p x).updatePort p fun u => { u with transaction := .idle }) =
      s.updatePort p fun u =>
        { u with
          transaction := .idle, genLatch := if x = 0x1C then s.generation else u.genLatch,
          timeLatch := if x = 0x1E then s.etc else u.timeLatch } := by
  rw [State.opensByte, State.updatePort_updatePort]

/-- The direction bit of an address byte, and the address under it (R166). -/
theorem addressByte_low (b : Byte) : b.extractLsb' 0 7 = b.setWidth 7 := by
  ext i hi
  simp

theorem addressByte_read (b : Byte) : b.getLsbD 7 = true ↔ 128 ≤ b.toNat := by
  rw [BitVec.getLsbD, Nat.testBit_eq_decide_div_mod_eq, decide_eq_true_eq]
  omega

/-- A read address byte is the one at an address with bit 7 set. -/
theorem addressByte_eq {b x : Byte} (hb : 128 ≤ b.toNat) (hx : 128 ≤ x.toNat) :
    b.setWidth 7 = x.setWidth 7 ↔ b = x := by
  refine ⟨fun h => BitVec.eq_of_toNat_eq ?_, fun h => by rw [h]⟩
  have := congrArg BitVec.toNat h
  simp only [BitVec.toNat_setWidth] at this
  omega

theorem exec_addressByte (hr : s.resetPin = false) (hp : (s.port p).prst = false)
    (ht : (s.port p).transaction = .address) (b : Byte) :
    exec (.addressByte p b) s =
      .next (if 128 ≤ b.toNat then s.opensByte p (b.setWidth 7)
        else s.updatePort p fun u => { u with transaction := .write (b.setWidth 7) }) := by
  have bytes : exec (.addressByte p b) s =
      .next (if s.decodes p ∧ (s.port p).transaction = .address then
        if b.getLsbD 7 then s.startByte p (b.extractLsb' 0 7)
        else s.updatePort p fun u => { u with transaction := .write (b.extractLsb' 0 7) }
      else s) := rfl
  rw [bytes, if_pos ⟨State.decodes_of_released hr hp, ht⟩, addressByte_low, State.startByte_eq]
  simp only [addressByte_read]

/-- Settles O8: an address byte alone leaves nothing but the captures of its address. -/
theorem chipSelectAndAddressByte : Obligations.ChipSelectAndAddressByte := by
  have select : ∀ p s, exec (.chipSelectAssert p) s =
      .next (if (s.port p).transaction = .idle then
        s.updatePort p fun u => { u with transaction := if s.decodes p && s.ready then .address else .ignored }
      else s) := fun _ _ => rfl
  have deselect : ∀ p s, exec (.chipSelectDeassert p) s =
      .next (s.updatePort p fun u => { u with transaction := .idle }) := fun _ _ => rfl
  refine ⟨fun p s => ⟨rfl, fun hi hr hp hready => ?_, fun hi hdead => ?_⟩,
    fun p b s hr hp ht => ⟨_, exec_addressByte hr hp ht b, ?_⟩,
    fun p b s hr hp ht => ⟨fun hb => ?_, fun hb => ?_⟩⟩
  · rw [select, if_pos hi, State.decodes_of_released hr hp, hready]
    rfl
  · have dead : (s.decodes p && s.ready) = false := by
      obtain h | h | h := hdead <;> simp [State.decodes, h]
    rw [select, if_pos hi, dead]
    rfl
  · beta_reduce
    rw [deselect]
    split
    · rename_i hb
      rw [State.updatePort_opensByte_idle]
      have gen : b.setWidth 7 = (0x1C : Addr) ↔ b = 0x9C := addressByte_eq (x := 0x9C) hb (by decide)
      have time : b.setWidth 7 = (0x1E : Addr) ↔ b = 0x9E := addressByte_eq (x := 0x9E) hb (by decide)
      simp only [gen, time]
    · rename_i hb
      have gen : b ≠ 0x9C := by rintro rfl; exact hb (by decide)
      have time : b ≠ 0x9E := by rintro rfl; exact hb (by decide)
      rw [State.updatePort_updatePort]
      simp only [gen, time, if_false]
  · rw [exec_addressByte hr hp ht, if_neg (by omega)]
  · rw [exec_addressByte hr hp ht, if_pos hb]

/-! ### Write bytes -/

/-- The argument area is at the addresses 10H to 1BH (R168). -/
theorem argumentAddress (n : Fin 12) :
    writeRow (BitVec.ofNat 7 (0x10 + n.val)) = .arg ∧ argIndex (BitVec.ofNat 7 (0x10 + n.val)) = n ∧
      nextAddress (BitVec.ofNat 7 (0x10 + n.val)) = BitVec.ofNat 7 (0x11 + n.val) := by
  decide +revert

/-- The addresses at which a write byte is ignored (R167). -/
theorem ignoredAddress {x : Addr}
    (h : x.toNat < 0x10 ∨ 0x1C ≤ x.toNat ∧ x.toNat < 0x60 ∧ x ≠ 0x2F ∨ 0x77 ≤ x.toNat) : writeRow x = .ignored := by
  have stage : x = 0x2F ↔ x.toNat = 0x2F := by simp [BitVec.toNat_eq]
  rw [ne_eq, stage] at h
  simp only [writeRow, stage, BitVec.le_def, BitVec.reduceToNat]
  rw [if_neg (by omega), if_neg (by omega), if_neg (by omega)]

/-- Settles O10: the row of a write byte is the one its address has. -/
theorem argumentAndIgnoredWrites : Obligations.ArgumentAndIgnoredWrites := by
  refine ⟨fun p v n s h => ?_, fun p v x s h hx => ?_⟩
  · obtain ⟨row, index, next⟩ := argumentAddress n
    have write := h.writeByteOf fun x t => t.updatePort p fun u => { u with args := u.args.set (argIndex x) v }
    rw [row] at write
    simp only [index, next, State.updatePort_updatePort] at write
    exact congrArg Host.Outcome.next write
  · have write := h.writeByteOf fun _ t => t
    rw [ignoredAddress hx] at write
    have next : nextAddress x = if x = 0x2E ∨ x = 0x30 then x else x + 1 := by
      have notStage : x ≠ 0x2F := by rintro rfl; simp at hx
      simp only [nextAddress, notStage, false_or]
    rw [next] at write
    exact congrArg Host.Outcome.next write

/-- Giving a port the transaction it has changes nothing. -/
theorem State.updatePort_transaction_self {x : Transaction} (h : (s.port p).transaction = x) :
    (s.updatePort p fun u => { u with transaction := x }) = s := by
  subst h
  exact s.setPort_self p

/-- A byte at the staging area is staged, and the address stays there (R32, R166). -/
theorem exec_stageData (h : s.WritesAt p 0x2F) (v : Byte) :
    exec (.stageData p v) s = .next ((s.stageByte p v).updatePort p fun u => { u with transaction := .write 0x2F }) :=
  congrArg Host.Outcome.next (h.writeByteOf fun _ t => t.stageByte p v)

theorem Content.stage_eq (x : Content) (i : Nat) (v : Byte) :
    x.stage i v = { x with payload := x.payload.setIfInBounds i v } := by
  unfold Content.stage
  split
  · rename_i h
    congr 1
    ext j hj
    simp [Vector.getElem_set, Vector.getElem_setIfInBounds]
  · rename_i h
    have same : x.payload.setIfInBounds i v = x.payload := by
      ext j hj
      simp only [Vector.getElem_setIfInBounds]
      split
      · omega
      · rfl
    rw [same]

/-- Settles O11: the staging pointer, then the staged length, decide what becomes of the byte. -/
theorem stageDataIsTaken : Obligations.StageDataIsTaken := by
  refine ⟨fun p v s h hpointer => ?_, fun p v k r c x s h hpointer hk hc => ⟨fun hl => ?_, fun hl => ?_⟩⟩
  · rw [exec_stageData h, State.stageByte, hpointer]
    obtain ⟨-, -, ht⟩ := h
    simp only [State.denyStage]
    rw [State.updatePort_transaction_self (by simpa using ht)]
  · have staged : s.stageByte p v =
        (s.setCell c { s.cell c with content := (s.cell c).content.stage x.length v }).setRecord k
          (some { r with next := .staging c (some { x with length := x.length + 1 }) }) := by
      simp [State.stageByte, State.stageInto, hpointer, hk, hc, Config.payloadCapacity, hl]
    rw [exec_stageData h, staged, State.updatePort_transaction_self (by simpa using h.2.2), Content.stage_eq]
  · have overrun : s.stageByte p v = s.setRecord k (some { r with next := .staging c (some { x with overrun := true }) }) := by
      simp [State.stageByte, State.stageInto, hpointer, hk, hc, Config.payloadCapacity, not_lt.mpr hl]
    rw [exec_stageData h, overrun, State.updatePort_transaction_self (by simpa using h.2.2)]

/-! ### Read bytes -/

/-- Settles O12: the group's bytes follow one another at the NOTICE address, and its eighth pops what was captured. -/
theorem noticeBytesPop : Obligations.NoticeBytesPop := by
  have notice : ∀ p b s, s.ReadsAt p 0x30 b → exec (.notice p) s = .next (s.completeByte p 0x30 b) := fun p b s h =>
    congrArg Host.Outcome.next h.readByteOf
  refine ⟨fun u => ⟨fun h => ?_, fun n hn => ?_⟩,
    fun p b g s h hb => ⟨fun hi => ?_, fun hi hheld => ?_, fun hi hheld => ?_⟩⟩
  · simp only [PortUnit.captureNotice, h]
    rfl
  · obtain ⟨rest, h⟩ := List.head?_eq_some_iff.mp hn
    simp [PortUnit.captureNotice, h]
  · have next : b.nextInGroup = some { g with index := g.index + 1 }.readByte := by simp [ReadByte.nextInGroup, hb, hi]
    rw [notice p b s h]
    simp [State.completeByte, next, PortUnit.completed, hb, hi, nextAddress, NoticeGroup.readByte]
  · rw [notice p b s h, State.completeByte_of_last (by simp [ReadByte.nextInGroup, hb, hi])]
    simp [PortUnit.completed, hb, hi, hheld, nextAddress, Queue.pop]
  · rw [notice p b s h, State.completeByte_of_last (by simp [ReadByte.nextInGroup, hb, hi])]
    simp [PortUnit.completed, hb, hheld, nextAddress, State.updatePort]

/-- The rows of the read bytes, by the address as a number (R167, R176). -/
theorem readRow_eq (x : Addr) :
    readRow x =
      if x.toNat = 0x1B ∨ x.toNat = 0x1C then .genCapture
      else if 0x1D ≤ x.toNat ∧ x.toNat ≤ 0x21 then .timeCapture
      else if 0x22 ≤ x.toNat ∧ x.toNat ≤ 0x2D then .readHdr
      else if x.toNat = 0x2E then .readData
      else if x.toNat = 0x30 then .notice
      else .statusRead := by
  simp only [readRow, BitVec.toNat_eq, BitVec.le_def, BitVec.reduceToNat]

theorem readRow_of_status {x : Addr} (h : x.toNat < 0x1B ∨ x.toNat = 0x2F ∨ 0x30 < x.toNat) : readRow x = .statusRead := by
  rw [readRow_eq, if_neg (by omega), if_neg (by omega), if_neg (by omega), if_neg (by omega), if_neg (by omega)]

theorem readRow_of_gen {x : Addr} (h : x.toNat = 0x1B ∨ x.toNat = 0x1C) : readRow x = .genCapture := by
  rw [readRow_eq, if_pos h]

theorem readRow_of_time {x : Addr} (h : 0x1D ≤ x.toNat ∧ x.toNat ≤ 0x21) : readRow x = .timeCapture := by
  rw [readRow_eq, if_neg (by omega), if_pos h]

theorem readRow_of_header {x : Addr} (h : 0x22 ≤ x.toNat ∧ x.toNat ≤ 0x2D) : readRow x = .readHdr := by
  rw [readRow_eq, if_neg (by omega), if_neg (by omega), if_pos h]

/-- The address advances but in the data, staging and notice areas (R166). -/
theorem nextAddress_eq (x : Addr) :
    nextAddress x = if x.toNat = 0x2E ∨ x.toNat = 0x2F ∨ x.toNat = 0x30 then x else x + 1 := by
  simp only [nextAddress, BitVec.toNat_eq, BitVec.reduceToNat]

/-- A byte with no effect opens the next by the command of its row. -/
theorem State.ReadsAt.readByteOf_none {x : Addr} {b : ReadByte} {row : ReadRow} (h : s.ReadsAt p x b) (hb : b.effect = .none)
    (hrow : readRow x = row) : s.readByteOf p row = s.opensByte p (nextAddress x) := by
  rw [← hrow, h.readByteOf, State.completeByte_of_none hb]

/-- The byte of an area other than NOTICE, with its effect on the unit named, opens the next. -/
theorem State.ReadsAt.readByteOf_last {x : Addr} {b : ReadByte} {row : ReadRow} (h : s.ReadsAt p x b)
    (hrow : readRow x = row) (hb : b.nextInGroup = none) {f : PortUnit → PortUnit}
    (hf : (s.port p).completed b = f (s.port p)) :
    s.readByteOf p row = State.opensByte (s.updatePort p f) p (nextAddress x) := by
  rw [← hrow, h.readByteOf, State.completeByte_of_last hb, State.updatePort, hf]
  rfl

/-- A sticky flag is cleared when the byte presented it as set (R171). -/
theorem and_not_eq_ite (x y : Bool) : (x && !y) = if y = true then false else x := by
  cases y <;> simp

/-- Settles O13: each byte has the effect that was fixed with it, and the next one opens. -/
theorem readBytes : Obligations.ReadBytes := by
  refine ⟨fun p b s h => ⟨fun hb hv => ?_, fun hb hv hf => ?_, fun hb => ?_⟩,
    fun p x b s h hb => ⟨fun hx => ?_, fun hx => ?_, fun hx => ?_, fun hx => ?_⟩, fun p b s h hb => ?_, fun p b s h hb hf => ?_⟩
  · have more : ¬ ((s.port p).valid - 1 = 0 ∧ (s.port p).fetch = .ready) := by omega
    exact congrArg Host.Outcome.next (h.readByteOf_last rfl (by simp [ReadByte.nextInGroup, hb])
      (f := fun u => { u with valid := u.valid - 1 }) (by simp only [PortUnit.completed, hb, more, if_false]))
  · exact congrArg Host.Outcome.next (h.readByteOf_last rfl (by simp [ReadByte.nextInGroup, hb])
      (f := fun u => { u with valid := 0, fetch := .idle }) (by simp [PortUnit.completed, hb, hv, hf]))
  · exact congrArg Host.Outcome.next (h.readByteOf_last rfl (by simp [ReadByte.nextInGroup, hb])
      (f := fun u => { u with underrun := true }) (by simp [PortUnit.completed, hb]))
  · have stage : x = 0x2F ↔ x.toNat = 0x2F := by simp [BitVec.toNat_eq]
    rw [stage] at hx
    have next : nextAddress x = if x = 0x2F then x else x + 1 := by
      rw [nextAddress_eq]
      simp only [stage]
      split_ifs <;> first | rfl | (exfalso; omega)
    rw [← next]
    exact congrArg Host.Outcome.next (h.readByteOf_none hb (readRow_of_status hx))
  · have at_ : x.toNat = 0x1B ∨ x.toNat = 0x1C := by simpa [BitVec.toNat_eq] using hx
    have next : nextAddress x = x + 1 := by rw [nextAddress_eq, if_neg (by omega)]
    rw [← next]
    exact congrArg Host.Outcome.next (h.readByteOf_none hb (readRow_of_gen at_))
  · have next : nextAddress x = x + 1 := by rw [nextAddress_eq, if_neg (by omega)]
    rw [← next]
    exact congrArg Host.Outcome.next (h.readByteOf_none hb (readRow_of_time hx))
  · have next : nextAddress x = x + 1 := by rw [nextAddress_eq, if_neg (by omega)]
    rw [← next]
    exact congrArg Host.Outcome.next (h.readByteOf_none hb (readRow_of_header hx))
  · refine congrArg Host.Outcome.next (h.readByteOf_last rfl (by simp [ReadByte.nextInGroup, hb])
      (f := fun u => { u with
        writeDenied := if b.value.getLsbD 2 = true then false else u.writeDenied,
        underrun := if b.value.getLsbD 1 = true then false else u.underrun,
        discarded := if b.value.getLsbD 0 = true then false else u.discarded }) ?_)
    simp only [PortUnit.completed, hb, PortUnit.clearSticky, and_not_eq_ite]
  · exact congrArg Host.Outcome.next (h.readByteOf_last rfl (by simp [ReadByte.nextInGroup, hb])
      (f := fun u => { u with fetch := .idle }) (by simp [PortUnit.completed, hb, hf]))

end Sys2Proof.Machine
end

section
/-! PROOF. What a port shows: the window's bytes and their effects, the images and codes, and the interrupt, wake and
data-out pins (R84 to R86, R166 to R175). -/

namespace Sys2Proof.Machine

variable {p q : Port} {s t : State}

/-! ### Bits and bytes -/

/-- A byte of a word is the word shifted down to it (R168). -/
theorem extractLsb'_eq_shift {w : Nat} (x : BitVec w) (k n : Nat) : x.extractLsb' k n = (x >>> k).setWidth n := by
  ext i hi
  simp

theorem extractLsb'_zero {w : Nat} (x : BitVec w) (n : Nat) : x.extractLsb' 0 n = x.setWidth n := by
  ext i hi
  simp

theorem bytes16_eq (w : BitVec 16) : bytes16 w = [(w >>> 8).setWidth 8, w.setWidth 8] := by
  simp only [bytes16, extractLsb'_zero]
  simp only [extractLsb'_eq_shift]

theorem bytes32_eq (x : BitVec 32) :
    bytes32 x = [(x >>> 24).setWidth 8, (x >>> 16).setWidth 8, (x >>> 8).setWidth 8, x.setWidth 8] := by
  simp only [bytes32, extractLsb'_zero]
  simp only [extractLsb'_eq_shift]

/-- STATUS0 packs its fields from bit 7 down (R171). -/
theorem status0_bits (x y : BitVec 2) (run vote int wake : Bool) :
    x ++ BitVec.ofBool run ++ BitVec.ofBool vote ++ y ++ BitVec.ofBool int ++ BitVec.ofBool wake =
      ((x ++ (0 : BitVec 6)) ||| (if run = true then 0x20 else 0) ||| (if vote = true then 0x10 else 0) |||
        (0 : BitVec 4) ++ y ++ (0 : BitVec 2) ||| (if int = true then 0x02 else 0) |||
        (if wake = true then 0x01 else 0) : BitVec 8) := by
  decide +revert

theorem status1_bits (denied underrun discarded : Bool) :
    (0 : BitVec 5) ++ BitVec.ofBool denied ++ BitVec.ofBool underrun ++ BitVec.ofBool discarded =
      ((if denied = true then 0x04 else 0) ||| (if underrun = true then 0x02 else 0) |||
        (if discarded = true then 0x01 else 0) : BitVec 8) := by
  decide +revert

/-- The flags byte of a notice packs its flags from bit 7 down (R173). -/
theorem flags_bits (more recovered inlined wake coalesced : Bool) (detail : BitVec 2) :
    BitVec.ofBool more ++ BitVec.ofBool recovered ++ BitVec.ofBool inlined ++ BitVec.ofBool wake ++
        BitVec.ofBool coalesced ++ (0 : BitVec 1) ++ detail =
      ((if more = true then 0x80 else 0) ||| (if recovered = true then 0x40 else 0) |||
        (if inlined = true then 0x20 else 0) ||| (if wake = true then 0x10 else 0) |||
        (if coalesced = true then 0x08 else 0) ||| detail.setWidth 8 : BitVec 8) := by
  decide +revert

theorem State.status0_eq (s : State) (p : Port) :
    s.status0 p =
      (match (s.port p).state with | .offline => 0x00 | .active => 0x40 | .doze => 0x80 | .leaving => 0xC0) |||
        (if s.mode = .run then 0x20 else 0) ||| (if (s.port p).vote = true then 0x10 else 0) |||
        (match (s.port p).fetch with | .idle => 0x00 | .inFlight _ _ => 0x04 | .ready => 0x08) |||
        (if s.intActive p = true then 0x02 else 0) ||| (if (s.port p).queue.wakePending = true then 0x01 else 0) := by
  have state : (s.port p).state.bits ++ (0 : BitVec 6) =
      (match (s.port p).state with | .offline => 0x00 | .active => 0x40 | .doze => 0x80 | .leaving => 0xC0) := by
    cases (s.port p).state <;> rfl
  have fetch : (0 : BitVec 4) ++ (s.port p).fetch.bits ++ (0 : BitVec 2) =
      (match (s.port p).fetch with | .idle => 0x00 | .inFlight _ _ => 0x04 | .ready => 0x08) := by
    cases (s.port p).fetch with
    | inFlight x c => simp [FetchState.bits]
    | _ => rfl
  have mode : s.mode.bit = true ↔ s.mode = .run := by cases s.mode <;> simp [Mode.bit]
  rw [State.status0, status0_bits, state, fetch]
  simp only [mode]

/-! ### What a fixed byte presents (R166, R167) -/

/-- The value and the effect of the byte at an address, by the address as a number. -/
theorem State.fixByte_byte (s : State) (p : Port) (x : Addr) :
    (s.fixByte p x).2 =
      let u := s.port p
      let n := x.toNat
      if n ≤ 0x03 then { value := s.statusByte p (Fin.ofNat 4 n), effect := if n = 0x01 then .clearSticky else .none }
      else if n = 0x04 then .plain u.result.code
      else if n ≤ 0x0E then .plain u.rdata[Fin.ofNat 10 (n - 0x05)]
      else if n = 0x0F then .plain Config.versionByte
      else if n ≤ 0x1B then .plain u.args[Fin.ofNat 12 (n - 0x10)]
      else if n = 0x1C then .plain (s.generation.extractLsb' 8 8)
      else if n = 0x1D then .plain (u.genLatch.extractLsb' 0 8)
      else if n = 0x1E then .plain (s.etc.extractLsb' 24 8)
      else if n ≤ 0x21 then .plain (u.timeLatch.extractLsb' (8 * (0x21 - n)) 8)
      else if n ≤ 0x2D then u.readHdrByte (Fin.ofNat 12 (n - 0x22))
      else if n = 0x2E then u.readDataByte
      else if n = 0x30 then u.captureNotice.readByte
      else .plain 0 := by
  simp only [State.fixByte, apply_ite Prod.snd]

/-- The areas of a port's own bytes: results, arguments and the read header. -/
theorem State.fixByte_rdata (s : State) (p : Port) (i : Fin 10) :
    (s.fixByte p (BitVec.ofNat 7 (0x05 + i.val))).2 = .plain (s.port p).rdata[i] := by
  have n : (BitVec.ofNat 7 (0x05 + i.val)).toNat = 0x05 + i.val := by simp only [BitVec.toNat_ofNat]; omega
  have index : Fin.ofNat 10 (0x05 + i.val - 0x05) = i := by ext; simp
  rw [State.fixByte_byte]
  simp only [n, index]
  rw [if_neg (by omega), if_neg (by omega), if_pos (by omega)]

theorem State.fixByte_args (s : State) (p : Port) (i : Fin 12) :
    (s.fixByte p (BitVec.ofNat 7 (0x10 + i.val))).2 = .plain (s.port p).args[i] := by
  have n : (BitVec.ofNat 7 (0x10 + i.val)).toNat = 0x10 + i.val := by simp only [BitVec.toNat_ofNat]; omega
  have index : Fin.ofNat 12 (0x10 + i.val - 0x10) = i := by ext; simp
  rw [State.fixByte_byte]
  simp only [n, index]
  rw [if_neg (by omega), if_neg (by omega), if_neg (by omega), if_neg (by omega), if_pos (by omega)]

theorem State.fixByte_header (s : State) (p : Port) (i : Fin 12) :
    (s.fixByte p (BitVec.ofNat 7 (0x22 + i.val))).2 = (s.port p).readHdrByte i := by
  have n : (BitVec.ofNat 7 (0x22 + i.val)).toNat = 0x22 + i.val := by simp only [BitVec.toNat_ofNat]; omega
  have index : Fin.ofNat 12 (0x22 + i.val - 0x22) = i := by ext; simp
  rw [State.fixByte_byte]
  simp only [n, index]
  rw [if_neg (by omega), if_neg (by omega), if_neg (by omega), if_neg (by omega), if_neg (by omega), if_neg (by omega),
    if_neg (by omega), if_neg (by omega), if_neg (by omega), if_pos (by omega)]

/-- The addresses without an area present 00H (R167). -/
theorem State.fixByte_unassigned (s : State) (p : Port) {x : Addr} (h : x.toNat = 0x2F ∨ 0x30 < x.toNat) :
    (s.fixByte p x).2 = .plain 0 := by
  rw [State.fixByte_byte]
  simp only
  rw [if_neg (by omega), if_neg (by omega), if_neg (by omega), if_neg (by omega), if_neg (by omega), if_neg (by omega),
    if_neg (by omega), if_neg (by omega), if_neg (by omega), if_neg (by omega), if_neg (by omega), if_neg (by omega)]

/-- STATUS1, the last header byte, READ_DATA and NOTICE have the only bytes with an effect (R166). -/
theorem State.fixByte_effect_none (s : State) (p : Port) {x : Addr} (h1 : x.toNat ≠ 0x01) (h2D : x.toNat ≠ 0x2D)
    (h2E : x.toNat ≠ 0x2E) (h30 : x.toNat ≠ 0x30) : (s.fixByte p x).2.effect = .none := by
  have last : x.toNat ≤ 0x2D → ¬ x.toNat ≤ 0x21 → (Fin.ofNat 12 (x.toNat - 0x22) : Fin 12) ≠ 11 := fun hle hlt e => by
    have := congrArg Fin.val e
    simp only [Fin.val_ofNat] at this
    have eleven : ((11 : Fin 12) : Nat) = 11 := rfl
    omega
  have header : x.toNat ≤ 0x2D → ¬ x.toNat ≤ 0x21 →
      ((s.port p).readHdrByte (Fin.ofNat 12 (x.toNat - 0x22))).effect = .none := fun hle hlt => by
    rw [PortUnit.readHdrByte]
    exact if_neg fun h => last hle hlt h.1
  rw [State.fixByte_byte]
  simp only [h1, h2E, h30, if_false]
  split_ifs <;> first | rfl | exact header ‹_› ‹_›

/-- A captured group starts at its first byte (R77). -/
theorem PortUnit.captureNotice_index (u : PortUnit) : u.captureNotice.index = 0 := by
  unfold PortUnit.captureNotice
  split <;> rfl

/-- The bytes of the statuses and latches (R108, R171, R172). -/
theorem State.fixByte_constant (s : State) (p : Port) :
    (s.fixByte p 0x00).2.value = s.status0 p ∧ (s.fixByte p 0x01).2.value = (s.port p).status1 ∧
      (s.fixByte p 0x02).2.value = BitVec.ofNat 8 (s.port p).queue.entries.length ∧
      (s.fixByte p 0x03).2.value = BitVec.ofNat 8 (s.port p).valid ∧
      (s.fixByte p 0x04).2.value = (s.port p).result.code ∧ (s.fixByte p 0x0F).2.value = 0x22 ∧
      (s.fixByte p 0x1C).2.value = s.generation.extractLsb' 8 8 ∧
      (s.fixByte p 0x1D).2.value = (s.port p).genLatch.extractLsb' 0 8 ∧
      (s.fixByte p 0x1E).2.value = s.etc.extractLsb' 24 8 ∧
      (s.fixByte p 0x1F).2.value = (s.port p).timeLatch.extractLsb' 16 8 ∧
      (s.fixByte p 0x20).2.value = (s.port p).timeLatch.extractLsb' 8 8 ∧
      (s.fixByte p 0x21).2.value = (s.port p).timeLatch.extractLsb' 0 8 :=
  ⟨rfl, rfl, rfl, rfl, rfl, rfl, rfl, rfl, rfl, rfl, rfl, rfl⟩

/-- The bytes that have an effect (R77, R96, R97, R171). -/
theorem State.fixByte_effective (s : State) (p : Port) :
    (s.fixByte p 0x01).2.effect = .clearSticky ∧ (s.fixByte p 0x2D).2 = (s.port p).readHdrByte 11 ∧
      (s.fixByte p 0x2E).2 = (s.port p).readDataByte ∧ (s.fixByte p 0x30).2 = (s.port p).captureNotice.readByte :=
  ⟨rfl, rfl, rfl, rfl⟩

/-- The first byte of a captured group (R77). -/
theorem PortUnit.captureNotice_readByte (u : PortUnit) :
    u.captureNotice.readByte = { value := u.captureNotice.image[0], effect := .noticeByte u.captureNotice } := by
  simp only [NoticeGroup.readByte, PortUnit.captureNotice_index]
  rfl

theorem Notice.flags_eq (n : Notice) :
    n.flags =
      (if n.more = true then 0x80 else 0) ||| (if n.recovered = true then 0x40 else 0) |||
        (if n.inlined = true then 0x20 else 0) ||| (if n.wake = true then 0x10 else 0) |||
        (if n.coalesced = true then 0x08 else 0) ||| n.detail.setWidth 8 :=
  flags_bits _ _ _ _ _ _

/-- The eight bytes of a notice (R173). -/
theorem Notice.image_eq (n : Notice) :
    n.image = #v[n.kind.code, n.slot, n.incarnation,
      (if n.more = true then 0x80 else 0) ||| (if n.recovered = true then 0x40 else 0) |||
        (if n.inlined = true then 0x20 else 0) ||| (if n.wake = true then 0x10 else 0) |||
        (if n.coalesced = true then 0x08 else 0) ||| n.detail.setWidth 8,
      (n.value >>> 8).setWidth 8, n.value.setWidth 8, (n.data >>> 8).setWidth 8, n.data.setWidth 8] := by
  simp only [Notice.image, Notice.flags_eq, extractLsb'_zero]
  simp only [extractLsb'_eq_shift]

theorem tagByte_eq (x : Option GroupTag) :
    tagByte x = match x with
      | none => 0x00
      | some t => match t.port with | .a => 0x80 | .b => 0x81 | .c => 0x82 | .d => 0x83 := by
  rcases x with _ | ⟨port, count⟩
  · rfl
  · cases port <;> simp [tagByte, portCode]

/-- The twelve bytes of the read header (R174). -/
theorem Header.image_eq (h : Header) :
    h.image = #v[h.slot,
      (h.sequence >>> 24).setWidth 8, (h.sequence >>> 16).setWidth 8, (h.sequence >>> 8).setWidth 8,
      h.sequence.setWidth 8,
      (h.commitTime >>> 24).setWidth 8, (h.commitTime >>> 16).setWidth 8, (h.commitTime >>> 8).setWidth 8,
      h.commitTime.setWidth 8, BitVec.ofNat 8 h.length, tagByte h.tag, tagCountByte h.tag] := by
  rw [Header.image]
  simp only [extractLsb'_zero]
  simp only [extractLsb'_eq_shift]

/-- Settles O9: what each area of the window shows. -/
theorem windowPresents : Obligations.WindowPresents := by
  refine ⟨fun p s => ?_, Notice.image_eq, fun h => ?_, fun _ _ _ _ => ⟨rfl, rfl⟩,
    fun w x => ⟨bytes16_eq w, bytes32_eq x⟩, rfl, rfl, rfl⟩
  · obtain ⟨status0, status1, fill, valid, result, version, gen, genLatch, time, time2, time1, time0⟩ := s.fixByte_constant p
    obtain ⟨sticky, header, data, notice⟩ := s.fixByte_effective p
    refine ⟨status0.trans (s.status0_eq p), status1.trans (status1_bits _ _ _), fill, valid, result, fun i => ?_, version,
      fun i => ?_, gen, genLatch, time, time2, time1, time0, fun i => ?_, fun h => ?_, fun h => ?_,
      notice.trans (PortUnit.captureNotice_readByte _), sticky, ?_, fun x hx => ?_, fun x hx => ?_⟩
    · rw [State.fixByte_rdata]; rfl
    · rw [State.fixByte_args]; rfl
    · rw [State.fixByte_header]; rfl
    · rw [data, PortUnit.readDataByte, if_pos h]
    · rw [data, PortUnit.readDataByte, if_neg (by omega)]
    · rw [header, PortUnit.readHdrByte]
      simp only [true_and]
    · simp only [List.mem_cons, List.not_mem_nil, or_false, not_or, BitVec.toNat_eq, BitVec.reduceToNat] at hx
      obtain ⟨h1, h2D, h2E, h30⟩ := hx
      exact s.fixByte_effect_none p h1 h2D h2E h30
    · simp only [BitVec.toNat_eq, BitVec.reduceToNat] at hx
      exact s.fixByte_unassigned p hx
  · rw [Header.image_eq, tagByte_eq]
    rfl

/-! ### The pins (R84 to R86, R165, R166, R175) -/

theorem Queue.urgentCondition_iff (q : Queue) :
    q.urgentCondition = true ↔ q.irq.urgent = true ∧ ∃ n ∈ q.entries, n.cls = .urgent := by
  simp [Queue.urgentCondition]

theorem Queue.levelCondition_iff (q : Queue) :
    q.levelCondition = true ↔ q.irq.level = true ∧ q.irq.levelAt ≤ q.entries.length := by
  rw [Queue.levelCondition, Bool.and_eq_true, decide_eq_true_eq, Queue.fill]

theorem PortUnit.fetchCondition_iff (u : PortUnit) :
    u.fetchCondition = true ↔ u.queue.irq.fetch = true ∧ u.fetch = .ready := by
  simp [PortUnit.fetchCondition]

theorem State.intActive_iff (s : State) (p : Port) :
    s.intActive p = true ↔
      s.resetPin = false ∧ (s.port p).state = .active ∧
        ((s.port p).queue.urgentCondition = true ∨ (s.port p).queue.levelCondition = true ∨
          (s.port p).fetchCondition = true) := by
  simp [State.intActive, and_assoc, or_assoc]

theorem State.wakAsserted_iff (s : State) (p : Port) :
    s.wakAsserted p = true ↔
      s.resetPin = false ∧ (s.port p).state = .doze ∧ (s.port p).queue.wakePending = true := by
  simp [State.wakAsserted, and_assoc]

/-- Settles O46: each output is its condition. -/
theorem interruptAndWakeOutputs : Obligations.InterruptAndWakeOutputs := by
  refine ⟨fun p s => ⟨?_, s.wakAsserted_iff p⟩, fun p s => ⟨rfl, rfl, fun h => ⟨?_, ?_⟩⟩,
    fun p s => ⟨fun h => ?_, fun hr hp => ⟨fun x b ht => ?_, fun x ht => ?_, fun ht => ?_⟩⟩⟩
  · rw [State.intActive_iff, Queue.urgentCondition_iff, Queue.levelCondition_iff, PortUnit.fetchCondition_iff]
  · simp [State.intPinHigh, State.intActive, h]
  · simp [State.wakPinHigh, State.wakAsserted, h]
  · obtain h | h | h := h
    · simp [State.dataOut, State.not_decodes (p := p) (.inl h)]
    · simp [State.dataOut, State.not_decodes (s := s) (.inr h)]
    · simp [State.dataOut, h]
  · simp [State.dataOut, State.decodes_of_released hr hp, ht]
  · simp only [List.mem_cons, List.not_mem_nil, or_false] at ht
    obtain h | h | h := ht <;> simp [State.dataOut, State.decodes_of_released hr hp, h]
  · simp [State.dataOut, State.decodes_of_released hr hp, ht]

/-! ### The watched field (R125, R126) -/

/-- A byte inside the version is the payload's (R41). -/
theorem Content.byteAt_inside {x : Content} {i : Nat} (h : i < x.length) : x.byteAt i = x.payload.toList.getD i 0 := by
  simp [Content.byteAt, h]

/-- Two bytes as one number, most significant first. -/
theorem toNat_append_byte (b0 b1 : Byte) : (b0 ++ b1).toNat = 256 * b0.toNat + b1.toNat := by
  rw [BitVec.toNat_append, ← Nat.shiftLeft_add_eq_or_of_lt b1.isLt, Nat.shiftLeft_eq, Nat.mul_comm]

/-- Settles O33: the sample is missing where the version ends inside the field, and is its bytes' number elsewhere. -/
theorem watchSamplesTheField : Obligations.WatchSamplesTheField := by
  refine ⟨fun w x => ⟨fun h => ?_, fun h hw hs => ?_, fun h hw hs => ?_, fun h hw hs => ?_, fun h hw hs => ?_⟩,
    fun w x => ⟨rfl, rfl⟩⟩
  · have missing : x.length < w.offset + w.width.bytes := by cases e : w.width <;> simpa [e, WatchWidth.bytes] using h
    simp [Watch.evaluate, Watch.sample, missing]
  · simp only [hw] at h
    simp [Watch.sample, hw, hs, WatchWidth.bytes, not_lt.mpr h, Content.byteAt_inside (x := x) (i := w.offset) (by omega)]
  · simp only [hw] at h
    simp [Watch.sample, hw, hs, WatchWidth.bytes, not_lt.mpr h, Content.byteAt_inside (x := x) (i := w.offset) (by omega)]
  · simp only [hw] at h
    rw [Watch.sample]
    simp [hw, hs, WatchWidth.bytes, not_lt.mpr h, Content.byteAt_inside (x := x) (i := w.offset) (by omega),
      Content.byteAt_inside (x := x) (i := w.offset + 1) (by omega), toNat_append_byte]
  · simp only [hw] at h
    simp [Watch.sample, hw, hs, WatchWidth.bytes, not_lt.mpr h, Content.byteAt_inside (x := x) (i := w.offset) (by omega),
      Content.byteAt_inside (x := x) (i := w.offset + 1) (by omega)]

end Sys2Proof.Machine
end

section
/-! PROOF. Commands issued: the port check and the mode check, the end of DOZE, the life cycle, the barrier and the
settings (R48, R49, R68, R83, R150 to R154, R159 to R162). -/

namespace Sys2Proof.Machine

variable {p q : Port} {s t : State}

/-! ### What a command answers -/

/-- What the block that owns a command does with it (R169). -/
def Command.body (c : Command) (p : Port) : State → Reply :=
  match c with
  | .join => fun t => .take (t.updatePort p PortUnit.joined) []
  | .leave => fun t => .take (t.leavingEntry p) []
  | .doze => fun t => .take (t.updatePort p PortUnit.dozed) []
  | .go => State.goBody p
  | .setExchange => State.setExchangeBody p
  | .setQueue => State.setQueueBody p
  | .setFilter => State.setFilterBody p
  | .clearFilter => State.clearFilterBody p
  | .setIrq => State.setIrqBody p
  | .claim => State.claimBody p
  | .release => State.releaseBody p
  | .adopt => State.adoptBody p
  | .lookup => State.lookupBody p
  | .openUpdate => State.openUpdateBody p
  | .selectStage => State.selectStageBody p
  | .abandon => State.abandonBody p
  | .commit => State.commitBody p
  | .commitGroup => State.commitGroupBody p
  | .setWatch => State.setWatchBody p
  | .clearWatch => State.clearWatchBody p
  | .fetch => State.fetchBody p
  | .request => State.requestBody p
  | .cancelRequest => State.cancelRequestBody p

/-- The byte at a command's address issues it to its block. -/
theorem exec_instr (c : Command) (p : Port) (v : Byte) (s : State) :
    exec (c.instr p v) s = .next (s.issue p c (c.body p)) := by
  cases c <;> rfl

theorem State.Issues.refuses {c : Command} {x : Result} (h : s.Issues p c) (v : Byte)
    (hc : c.check (s.port p).endDoze.state s.mode = some x) : Refuses (c.instr p v) p s x := by
  rw [Refuses, exec_instr, State.issue_of_refused _ h.writesAt hc]

/-- Past both checks the block answers. -/
theorem State.Issues.answers {c : Command} (h : s.Issues p c) (v : Byte)
    (hc : c.check (s.port p).endDoze.state s.mode = none) :
    exec (c.instr p v) s = .next ((s.handCommand p).conclude p (c.body p (s.handCommand p))) := by
  rw [exec_instr, State.issue_of_passed _ h.writesAt hc]

theorem State.SlotCommand.answers {c : Command} (h : s.SlotCommand p c) (hc : c.cls = .slot) (v : Byte) :
    exec (c.instr p v) s = .next ((s.handCommand p).conclude p (c.body p (s.handCommand p))) := by
  rw [exec_instr, h.issue hc]

theorem State.SlotCommand.refuses {c : Command} {x : Result} (h : s.SlotCommand p c) (hc : c.cls = .slot) (v : Byte)
    (hb : c.body p (s.handCommand p) = .refuse x) : Refuses (c.instr p v) p s x := by
  rw [Refuses, h.answers hc v, hb, State.conclude]

theorem State.SlotCommand.takes {c : Command} {d : List Byte} (h : s.SlotCommand p c) (hc : c.cls = .slot) (v : Byte)
    (hb : c.body p (s.handCommand p) = .take t d) : exec (c.instr p v) s = .next (t.setResult p .ok d) := by
  rw [h.answers hc v, hb, State.conclude]

/-- The settings of a port's own pass the checks in both modes (R151). -/
theorem Command.check_active_own {c : Command} {m : Mode} (hc : c.cls = .ownSettings) : c.check .active m = none := by
  have hjoin : c ≠ .join := by rintro rfl; cases hc
  simp [Command.check, Command.portCheck, Command.modeCheck, hjoin, hc]

theorem Command.check_active_setup {c : Command} (hc : c.cls = .settings) : c.check .active .setup = none := by
  have hjoin : c ≠ .join := by rintro rfl; cases hc
  simp [Command.check, Command.portCheck, Command.modeCheck, hjoin, hc]

/-! ### The checks (R150, R151) -/

/-- Settles O14: the checks read the state that the end of DOZE leaves, and the mode. -/
theorem portAndModeChecksRefuse : Obligations.PortAndModeChecksRefuse := by
  intro c p v s h
  refine ⟨fun hl => h.refuses v ?_, fun ho hj => h.refuses v ?_, fun hj hc => h.refuses v ?_, fun hj hm hc => h.refuses v ?_,
    fun hj hm hc => h.refuses v ?_⟩
  · simp [hl, Command.check, Command.portCheck]
  · simp [ho, Command.check, Command.portCheck, hj]
  · rw [hj.endDoze_state, hc]
    rfl
  · rw [hj.endDoze_state, hm]
    simp only [List.mem_cons, List.not_mem_nil, or_false] at hc
    obtain rfl | rfl | rfl := hc <;> rfl
  · rw [hj.endDoze_state, hm]
    have slot : c.cls = .slot ∨ c.cls = .dozing := by
      cases c <;> simp_all [Command.cls]
    have notJoin : c ≠ .join := by rintro rfl; simp [Command.cls] at slot
    obtain e | e := slot <;> simp [Command.check, Command.portCheck, Command.modeCheck, notJoin, e]

/-! ### The end of DOZE (R154) -/

theorem State.handCommand_of_doze (h : (s.port p).state = .doze) :
    s.handCommand p = s.updatePort p fun u =>
      { u with state := .active, queue := { u.queue with wakePending := false }, transaction := .discarding } := by
  simp only [State.handCommand, State.updatePort, PortUnit.endDoze, h]

theorem State.handCommand_of_awake (h : (s.port p).state ≠ .doze) :
    s.handCommand p = s.updatePort p fun u => { u with transaction := .discarding } := by
  have same : (s.port p).endDoze = s.port p := by
    unfold PortUnit.endDoze
    split
    · exact absurd ‹_› h
    all_goals rfl
  simp only [State.handCommand, State.updatePort, same]

/-- A command is handed the same state from DOZE as from ACTIVE with wake pending clear. -/
theorem State.issue_congr {c : Command} (body : State → Reply) (hw : s.writesAt p c.address = t.writesAt p c.address)
    (hissue : s.writesAt p c.address = true) (h : s.handCommand p = t.handCommand p) :
    s.issue p c body = t.issue p c body := by
  simp only [State.issue, hissue, ← hw, h, if_true]

/-- Settles O15: the end of DOZE comes before everything a command does. -/
theorem dozeEndsAtACommand : Obligations.DozeEndsAtACommand := by
  refine ⟨fun c p v s h hdoze => ?_, fun p s => ⟨fun hd => State.handCommand_of_doze hd, fun hd => State.handCommand_of_awake hd⟩⟩
  generalize ht : (s.updatePort p fun u =>
    { u with state := .active, queue := { u.queue with wakePending := false } }) = t
  have writes : t.Issues p c := by
    obtain ⟨hr, hp, htr⟩ := h
    subst ht
    exact ⟨by simpa using hr, by simpa using hp, by simpa using htr⟩
  have hand : s.handCommand p = t.handCommand p := by
    subst ht
    rw [State.handCommand_of_doze hdoze, State.handCommand_of_awake (by simp), State.updatePort_updatePort]
  rw [exec_instr, exec_instr, State.issue_congr _ (h.writesAt.trans writes.writesAt.symm) h.writesAt hand]

/-! ### JOIN and DOZE (R152, R153) -/

/-- A result with no data (R170). -/
theorem State.setResult_nil (s : State) (p : Port) (x : Result) :
    s.setResult p x [] = s.updatePort p fun u => { u with result := x, rdata := Vector.replicate 10 0 } := rfl

/-- Settles O16: both commands change their port alone. -/
theorem joinAndDozeTaken : Obligations.JoinAndDozeTaken := by
  refine ⟨fun p v s h ho => ?_, fun p v s h hj hm => ?_⟩
  · have check : Command.join.check (s.port p).endDoze.state s.mode = none := by
      simp [ho, Command.check, Command.portCheck, Command.modeCheck, Command.cls]
    have taken := h.answers v check
    rw [State.handCommand_of_awake (by simp [ho])] at taken
    rw [← Command.instr.eq_1, taken, Command.body, State.conclude, State.setResult_nil, State.updatePort_updatePort,
      State.updatePort_updatePort]
    rfl
  · have check : Command.doze.check (s.port p).endDoze.state s.mode = none := by
      rw [hj.endDoze_state, hm]
      rfl
    have taken := h.answers v check
    obtain ha | hd := hj
    · rw [State.handCommand_of_awake (by simp [ha])] at taken
      rw [← Command.instr.eq_3, taken, Command.body, State.conclude, State.setResult_nil, State.updatePort_updatePort,
        State.updatePort_updatePort]
      rfl
    · rw [State.handCommand_of_doze hd] at taken
      rw [← Command.instr.eq_3, taken, Command.body, State.conclude, State.setResult_nil, State.updatePort_updatePort,
        State.updatePort_updatePort]
      rfl

/-! ### The arguments of a command taken in hand -/

theorem State.arg16_handCommand (s : State) (p : Port) (i j : Fin 12) :
    ((s.handCommand p).port p).arg16 i j = (s.port p).arg16 i j := by
  simp only [PortUnit.arg16, State.args_handCommand]

theorem State.arg24_handCommand (s : State) (p : Port) (i j k : Fin 12) :
    ((s.handCommand p).port p).arg24 i j k = (s.port p).arg24 i j k := by
  simp only [PortUnit.arg24, State.args_handCommand]

theorem State.arg32_handCommand (s : State) (p : Port) (i j k l : Fin 12) :
    ((s.handCommand p).port p).arg32 i j k l = (s.port p).arg32 i j k l := by
  simp only [PortUnit.arg32, State.args_handCommand]

theorem State.generation_handCommand (s : State) (p : Port) : (s.handCommand p).generation = s.generation := by
  simp

theorem State.jobs_handCommand (s : State) (p : Port) : (s.handCommand p).jobs = s.jobs := by
  simp

theorem State.hasRoom_handCommand (s : State) (p : Port) : (s.handCommand p).hasRoom = s.hasRoom := by
  simp only [State.hasRoom, State.jobs_handCommand]

/-! ### The barrier and GO (R161, R162) -/

theorem State.activePorts_eq_nil_iff : s.activePorts = [] ↔ ∀ p, (s.port p).state ≠ .active := by
  simp [State.activePorts, List.filter_eq_nil_iff]

theorem State.barrierHolds_iff :
    s.barrierHolds = true ↔ (∃ p, (s.port p).state = .active) ∧ ∀ p, (s.port p).state = .active → (s.port p).vote = true := by
  simp only [State.barrierHolds, Bool.and_eq_true, Bool.not_eq_true', List.isEmpty_eq_false_iff, List.all_eq_true, ne_eq,
    State.activePorts_eq_nil_iff]
  simp [State.activePorts]

theorem State.hasRoom_iff : s.hasRoom = true ↔ s.jobs.length < 16 := by
  rw [State.hasRoom, decide_eq_true_iff, Config.jobCapacity]

theorem exec_runTransition (s : State) : exec .runTransition s = .next s.checkBarrier := rfl

/-- Settles O17: GO reads the generation in the state it was handed, which differs from `s` by its transaction alone. -/
theorem goAndTheBarrier : Obligations.GoAndTheBarrier := by
  refine ⟨fun s => ⟨fun hm ha hv hr => ?_, fun hno => ?_⟩, fun p v s h ha hm => ?_⟩
  · have holds : s.barrierHolds = true := State.barrierHolds_iff.mpr ⟨ha, hv⟩
    rw [exec_runTransition, State.checkBarrier, hm]
    simp only [holds, State.hasRoom_iff.mpr hr, Bool.and_self, if_true]
    rfl
  · rw [exec_runTransition, State.checkBarrier]
    split
    · rfl
    next hm =>
      have fails : ¬ (s.barrierHolds && s.hasRoom) = true := by
        rw [Bool.and_eq_true, State.barrierHolds_iff, State.hasRoom_iff]
        rintro ⟨⟨⟨q, hq⟩, votes⟩, room⟩
        obtain hrun | none | ⟨q', hq', hv⟩ | full := hno
        · rw [hm] at hrun
          cases hrun
        · exact none q hq
        · rw [votes q' hq'] at hv
          cases hv
        · omega
      rw [if_neg fails]
  · have check : Command.go.check (s.port p).endDoze.state s.mode = none := by
      rw [PortUnit.endDoze_state, ha, hm]
      rfl
    have taken := h.answers v check
    have hand := State.handCommand_of_awake (s := s) (p := p) (by simp [ha])
    have reads : ((s.handCommand p).port p).arg16 0 1 = (s.handCommand p).generation ↔
        (s.port p).args[0] ++ (s.port p).args[1] = s.generation := by
      rw [State.arg16_handCommand, State.generation_handCommand]
      rfl
    refine ⟨fun hne => ?_, fun heq => ?_⟩
    · rw [Refuses, ← Command.instr.eq_4, taken, Command.body, State.goBody, if_neg (mt reads.mp hne)]
      rfl
    · refine ⟨_, rfl, ?_⟩
      rw [← Command.instr.eq_4, taken, Command.body, State.goBody, if_pos (reads.mpr heq), hand,
        State.updatePort_updatePort]
      rfl

/-! ### The settings of the exchange (R68, R159, R160) -/

theorem tickArg_of_gt {b : Byte} (h : 3 < b.toNat) : tickArg b = none := by
  have apart : ∀ x : Byte, x.toNat ≤ 3 → b ≠ x := by
    rintro x hx rfl
    omega
  simp only [tickArg, apart 0 (by decide), apart 1 (by decide), apart 2 (by decide), apart 3 (by decide), if_false]

theorem tickArg_of_le {b : Byte} (h : b.toNat ≤ 3) :
    tickArg b = some (if b = 0 then .us1 else if b = 1 then .us10 else if b = 2 then .us100 else .ms1) := by
  have last : b ≠ 0 → b ≠ 1 → b ≠ 2 → b = 3 := by
    intro h0 h1 h2
    bv_omega
  unfold tickArg
  split_ifs with h0 h1 h2 h3
  · rfl
  · rfl
  · rfl
  · rfl
  · exact absurd (last h0 h1 h2) h3

theorem State.votedPorts_updatePort (s : State) (p : Port) {f : PortUnit → PortUnit} (hf : ∀ u, (f u).vote = u.vote) :
    (s.updatePort p f).votedPorts = s.votedPorts := by
  have same : ∀ q, ((s.updatePort p f).port q).vote = (s.port q).vote := by
    intro q
    rw [State.port_updatePort_eq]
    split
    · rw [hf, ‹q = p›]
    · rfl
  simp only [State.votedPorts, same]

theorem State.votedPorts_handCommand (s : State) (p : Port) : (s.handCommand p).votedPorts = s.votedPorts := by
  exact State.votedPorts_updatePort s p fun u => (PortUnit.endDoze_fields u).1

theorem State.settingsRoom_iff : s.settingsRoom = true ↔ s.votedPorts = [] ∨ s.jobs.length < 16 := by
  rw [State.settingsRoom, Bool.or_eq_true, List.isEmpty_iff, State.hasRoom_iff]

/-- The arguments of SET_EXCHANGE that its first check accepts (R159). -/
def PortUnit.ExchangeArgsValid (u : PortUnit) : Prop :=
  ¬ (3 < (u.arg8 0).toNat ∨ u.arg16 1 2 = 0 ∨ 16777216 < (u.arg32 3 4 5 6).toNat)

/-- The settings that the arguments of SET_EXCHANGE name (R159). -/
def State.exchangeSet (s : State) (u : PortUnit) : State :=
  { s with
    tickPeriod := if u.arg8 0 = 0 then .us1 else if u.arg8 0 = 1 then .us10 else if u.arg8 0 = 2 then .us100 else .ms1,
    answerTimeout := u.arg16 1 2, orphanHold := u.arg32 3 4 5 6 }

theorem State.setExchangeBody_of_invalid (h : ¬ (s.port p).ExchangeArgsValid) : s.setExchangeBody p = .refuse .badArg := by
  simp only [State.setExchangeBody]
  obtain htick | hzero | hhold := not_not.mp h
  · rw [tickArg_of_gt htick]
  · split
    · rfl
    · rw [if_pos hzero]
  · split
    · rfl
    · split
      · rfl
      · rw [if_pos (by rw [Config.maxPeriod]; exact hhold)]

theorem State.setExchangeBody_of_valid (h : (s.port p).ExchangeArgsValid) :
    s.setExchangeBody p =
      if s.settingsRoom then .take (s.exchangeSet (s.port p)).settingsWritten (bytes16 (s.generation + 1))
      else .refuse .retry := by
  simp only [PortUnit.ExchangeArgsValid, not_or, not_lt] at h
  obtain ⟨htick, hzero, hhold⟩ := h
  have hmax : ¬ Config.maxPeriod < ((s.port p).arg32 3 4 5 6).toNat := by
    rw [Config.maxPeriod]
    omega
  simp only [State.setExchangeBody, tickArg_of_le htick, if_neg hzero, if_neg hmax]
  rfl

/-- What a settings write leaves, with the job that a standing vote asks for (R160). -/
theorem State.settingsWritten_of {g : Half} {jobs : List Job} {voters : List Port} (hg : s.generation = g)
    (hj : s.jobs = jobs) (hv : s.votedPorts = voters) :
    s.settingsWritten =
      let t := { s.updatePorts (fun _ w => { w with vote := false }) with generation := g + 1 }
      if voters = [] then t else State.grant { t with jobs := jobs ++ [.votesCleared (g + 1) voters] } := by
  subst hg hj hv
  simp only [State.settingsWritten_eq, List.isEmpty_iff]
  rfl

/-- A settings write with valid arguments is refused for want of room alone, and reports the new generation. -/
theorem State.Issues.settings {c : Command} (h : s.Issues p c) (hc : c.cls = .settings) (v : Byte)
    (ha : (s.port p).state = .active) (hm : s.mode = .setup) :
    exec (c.instr p v) s = .next ((s.handCommand p).conclude p (c.body p (s.handCommand p))) := by
  refine h.answers v ?_
  rw [PortUnit.endDoze_state, ha, hm]
  exact Command.check_active_setup hc

theorem PortUnit.exchangeArgsValid_handCommand :
    ((s.handCommand p).port p).ExchangeArgsValid ↔ (s.port p).ExchangeArgsValid := by
  simp only [PortUnit.ExchangeArgsValid, PortUnit.arg8, PortUnit.arg16, PortUnit.arg32, State.args_handCommand]

theorem State.settingsRoom_handCommand : (s.handCommand p).settingsRoom = true ↔ s.votedPorts = [] ∨ s.jobs.length < 16 := by
  rw [State.settingsRoom_iff, State.votedPorts_handCommand, State.jobs_handCommand]

/-- The arguments of SET_QUEUE that its first check accepts (R68). -/
def PortUnit.QueueArgsValid (u : PortUnit) : Prop :=
  legalDepth (u.arg8 0).toNat = true ∧ ¬ ((u.arg8 1).toNat = 0 ∨ (u.arg8 0).toNat - 1 < (u.arg8 1).toNat) ∧
    u.queue.fitsDepth (u.arg8 0).toNat = true

/-- The depth and the threshold of a port's queue set (R68). -/
def State.queueResized (s : State) (p : Port) (depth threshold : Nat) : State :=
  s.updatePort p fun u => { u with queue := u.queue.resized depth threshold }

theorem State.votedPorts_queueResized (s : State) (p : Port) (depth threshold : Nat) :
    (s.queueResized p depth threshold).votedPorts = s.votedPorts :=
  State.votedPorts_updatePort s p
    (f := fun u => { u with queue := u.queue.resized depth threshold }) fun _ => rfl

theorem State.setQueueBody_of_invalid (h : ¬ (s.port p).QueueArgsValid) : s.setQueueBody p = .refuse .badArg := by
  simp only [State.setQueueBody]
  split
  · rfl
  next hdepth =>
  split
  · rfl
  next hthreshold =>
  split
  · rfl
  next hfits => exact absurd ⟨Bool.not_eq_false _ ▸ hdepth, hthreshold, Bool.not_eq_false _ ▸ hfits⟩ h

theorem State.setQueueBody_of_valid (h : (s.port p).QueueArgsValid) :
    s.setQueueBody p =
      if s.settingsRoom then
        .take (s.queueResized p ((s.port p).arg8 0).toNat ((s.port p).arg8 1).toNat).settingsWritten (bytes16 (s.generation + 1))
      else .refuse .retry := by
  obtain ⟨hdepth, hthreshold, hfits⟩ := h
  simp only [State.setQueueBody, hdepth, hfits, if_neg hthreshold, Bool.true_eq_false, if_false]
  rfl

theorem Queue.fitsDepth_congr {q q' : Queue} (h : q.entries = q'.entries) (d : Nat) : q.fitsDepth d = q'.fitsDepth d := by
  unfold Queue.fitsDepth Queue.newestIsOverflow
  rw [h]

theorem PortUnit.queueArgsValid_handCommand :
    ((s.handCommand p).port p).QueueArgsValid ↔ (s.port p).QueueArgsValid := by
  have entries : ((s.handCommand p).port p).queue.entries = (s.port p).queue.entries := by
    simp only [State.port_handCommand, if_true, PortUnit.endDoze_queue]
    split <;> rfl
  simp only [PortUnit.QueueArgsValid, PortUnit.arg8, State.args_handCommand, Queue.fitsDepth_congr entries]

theorem Queue.newestIsOverflow_iff_exists (q : Queue) :
    q.newestIsOverflow = true ↔ ∃ n ∈ q.entries.getLast?, n.kind = .overflow := by
  unfold Queue.newestIsOverflow
  cases q.entries.getLast? <;> simp

theorem PortUnit.queueArgsValid_iff {u : PortUnit} :
    u.QueueArgsValid ↔
      ¬ (¬ (16 ≤ (u.arg8 0).toNat ∧ (u.arg8 0).toNat ≤ 128 ∧ (u.arg8 0).toNat % 16 = 0) ∨ (u.arg8 1).toNat = 0 ∨
        (u.arg8 0).toNat - 1 < (u.arg8 1).toNat ∨
        ¬ (u.queue.entries.length < (u.arg8 0).toNat ∨
          u.queue.entries.length = (u.arg8 0).toNat ∧ ∃ n ∈ u.queue.entries.getLast?, n.kind = .overflow)) := by
  rw [← Queue.newestIsOverflow_iff_exists]
  simp only [PortUnit.QueueArgsValid, legalDepth, decide_eq_true_eq, Queue.fitsDepth, Bool.or_eq_true, Bool.and_eq_true,
    beq_iff_eq]
  tauto

/-- Settles O18: the generation, the jobs and the votes that a settings write reads stand in the state it was handed as
they stood before. -/
theorem settingsWrites : Obligations.SettingsWrites := by
  refine ⟨?_, ?_⟩
  · intro p v s h ha hm u hold bad voters
    have answer := h.settings rfl v ha hm
    have valid : ¬ bad ↔ ((s.handCommand p).port p).ExchangeArgsValid := PortUnit.exchangeArgsValid_handCommand.symm
    refine ⟨fun hbad => ?_, fun hgood hv hfull => ?_, fun hgood hroom => ?_⟩
    · rw [Refuses, ← Command.instr.eq_5, answer, Command.body, State.setExchangeBody_of_invalid (mt valid.mpr (not_not.mpr hbad))]
      rfl
    · have noRoom : ¬ (s.handCommand p).settingsRoom = true := by
        rw [State.settingsRoom_handCommand, not_or, not_lt]
        exact ⟨hv, hfull⟩
      rw [Refuses, ← Command.instr.eq_5, answer, Command.body, State.setExchangeBody_of_valid (valid.mp hgood), if_neg noRoom]
      rfl
    · have written := State.settingsWritten_of (s := (s.handCommand p).exchangeSet ((s.handCommand p).port p))
        (State.generation_handCommand s p) (State.jobs_handCommand s p) (State.votedPorts_handCommand s p)
      rw [← Command.instr.eq_5, answer, Command.body, State.setExchangeBody_of_valid (valid.mp hgood),
        if_pos (State.settingsRoom_handCommand.mpr hroom), State.generation_handCommand, written, State.exchangeSet]
      simp only [PortUnit.arg8, PortUnit.arg16, PortUnit.arg32, State.args_handCommand]
      rfl
  · intro p v s h ha hm u depth threshold fits bad voters
    have answer := h.settings rfl v ha hm
    have valid : ¬ bad ↔ ((s.handCommand p).port p).QueueArgsValid :=
      (PortUnit.queueArgsValid_handCommand.trans PortUnit.queueArgsValid_iff).symm
    refine ⟨fun hbad => ?_, fun hgood hv hfull => ?_, fun hgood hroom => ?_⟩
    · rw [Refuses, ← Command.instr.eq_6, answer, Command.body, State.setQueueBody_of_invalid (mt valid.mpr (not_not.mpr hbad))]
      rfl
    · have noRoom : ¬ (s.handCommand p).settingsRoom = true := by
        rw [State.settingsRoom_handCommand, not_or, not_lt]
        exact ⟨hv, hfull⟩
      rw [Refuses, ← Command.instr.eq_6, answer, Command.body, State.setQueueBody_of_valid (valid.mp hgood), if_neg noRoom]
      rfl
    · have written := State.settingsWritten_of 
        (s := (s.handCommand p).queueResized p ((s.port p).arg8 0).toNat ((s.port p).arg8 1).toNat)
        (g := s.generation) (jobs := s.jobs) (voters := voters) (by simp [State.queueResized])
        (by simp [State.queueResized])
        ((State.votedPorts_queueResized _ p _ _).trans (State.votedPorts_handCommand s p))
      rw [← Command.instr.eq_6, answer, Command.body, State.setQueueBody_of_valid (valid.mp hgood),
        State.arg8_handCommand, State.arg8_handCommand, if_pos (State.settingsRoom_handCommand.mpr hroom),
          State.generation_handCommand, written]
      rfl

/-! ### The settings of a port's own (R48, R49, R83) -/

theorem filterArg_of_gt {b : Byte} (h : 7 < b.toNat) : filterArg b = none := dif_neg (by omega)

theorem filterArg_of_eq {b : Byte} {n : Fin 8} (h : b.toNat = n.val) : filterArg b = some n := by
  rw [filterArg, dif_pos (by omega)]
  exact congrArg some (Fin.ext h)

theorem State.Issues.ownSettings {c : Command} (h : s.Issues p c) (hc : c.cls = .ownSettings) (v : Byte)
    (hj : s.Joined p) :
    exec (c.instr p v) s = .next ((s.handCommand p).conclude p (c.body p (s.handCommand p))) := by
  refine h.answers v ?_
  rw [hj.endDoze_state]
  exact Command.check_active_own hc

theorem optionsArg_of_gt {b : Byte} (h : 63 < b.toNat) : optionsArg b = none := by
  have high : (b.getLsbD 6 || b.getLsbD 7) = true := by
    simp only [BitVec.getLsbD, Bool.or_eq_true, Nat.testBit_eq_decide_div_mod_eq, decide_eq_true_eq]
    have := b.isLt
    omega
  rw [optionsArg, if_pos high]

theorem optionsArg_of_le {b : Byte} (h : b.toNat ≤ 63) :
    optionsArg b = some { pub := b.getLsbD 0, coalesce := b.getLsbD 1, inlined := b.getLsbD 2, status := b.getLsbD 3,
                          limits := b.getLsbD 4, wake := b.getLsbD 5 } := by
  have low : ¬ (b.getLsbD 6 || b.getLsbD 7) = true := by
    simp only [BitVec.getLsbD, Bool.or_eq_true, Nat.testBit_eq_decide_div_mod_eq, decide_eq_true_eq]
    omega
  rw [optionsArg, if_neg low]

theorem boolArg_of_le {b : Byte} (h : b.toNat ≤ 1) : boolArg b = some (b == 1) := by
  have cases : b ≠ 0 → b = 1 := by
    intro h0
    bv_omega
  unfold boolArg
  split_ifs with h0 h1
  · subst h0; rfl
  · subst h1; rfl
  · exact absurd (cases h0) h1

/-- The filter that the arguments of SET_FILTER name (R48). -/
def PortUnit.filterArgs (u : PortUnit) : Filter :=
  { enabled := true, key := u.arg24 1 2 3, mask := u.arg24 4 5 6,
    options := { pub := (u.arg8 7).getLsbD 0, coalesce := (u.arg8 7).getLsbD 1, inlined := (u.arg8 7).getLsbD 2,
                 status := (u.arg8 7).getLsbD 3, limits := (u.arg8 7).getLsbD 4, wake := (u.arg8 7).getLsbD 5 } }

theorem State.setFilterBody_of_valid {n : Fin 8} (hn : ((s.port p).arg8 0).toNat = n.val)
    (ho : ((s.port p).arg8 7).toNat ≤ 63) :
    s.setFilterBody p =
      .take (s.updatePort p fun u => { u with filters := u.filters.set n (s.port p).filterArgs }) [] := by
  simp only [State.setFilterBody, filterArg_of_eq hn, optionsArg_of_le ho]
  rfl

theorem State.setFilterBody_of_invalid (h : 7 < ((s.port p).arg8 0).toNat ∨ 63 < ((s.port p).arg8 7).toNat) :
    s.setFilterBody p = .refuse .badArg := by
  simp only [State.setFilterBody]
  obtain hn | ho := h
  · rw [filterArg_of_gt hn]
  · split
    · rfl
    · rw [optionsArg_of_gt ho]

/-- The arguments of SET_IRQ that its check rejects (R83). -/
def PortUnit.IrqArgsInvalid (u : PortUnit) : Prop :=
  1 < (u.arg8 0).toNat ∨ 1 < (u.arg8 1).toNat ∨ 1 < (u.arg8 2).toNat ∨ (u.arg8 3).toNat = 0 ∨
    u.queue.depth < (u.arg8 3).toNat

theorem State.setIrqBody_of_invalid (h : (s.port p).IrqArgsInvalid) : s.setIrqBody p = .refuse .badArg := by
  simp only [State.setIrqBody]
  split
  next h0 h1 h2 =>
    have valid : ∀ {b : Byte} {x : Bool}, boolArg b = some x → ¬ 1 < b.toNat := by
      intro b x hx hb
      rw [boolArg_eq_none_iff.mpr hb] at hx
      cases hx
    obtain h | h | h | h := h
    · exact absurd h (valid h0)
    · exact absurd h (valid h1)
    · exact absurd h (valid h2)
    · rw [if_pos h]
  · rfl

theorem State.setIrqBody_of_valid (h : ¬ (s.port p).IrqArgsInvalid) :
    s.setIrqBody p =
      .take (s.updatePort p fun u => { u with queue := { u.queue with irq :=
        { urgent := (s.port p).arg8 0 == 1, level := (s.port p).arg8 1 == 1, fetch := (s.port p).arg8 2 == 1,
          levelAt := ((s.port p).arg8 3).toNat } } }) [] := by
  simp only [PortUnit.IrqArgsInvalid, not_or, not_lt] at h
  obtain ⟨h0, h1, h2, hzero, hdepth⟩ := h
  have inRange : ¬ (((s.port p).arg8 3).toNat = 0 ∨ (s.port p).queue.depth < ((s.port p).arg8 3).toNat) := by
    omega
  simp only [State.setIrqBody, boolArg_of_le h0, boolArg_of_le h1, boolArg_of_le h2, if_neg inRange]

theorem PortUnit.irqArgsInvalid_handCommand :
    ((s.handCommand p).port p).IrqArgsInvalid ↔ (s.port p).IrqArgsInvalid := by
  have depth : ((s.handCommand p).port p).queue.depth = (s.port p).queue.depth := by
    simp only [State.port_handCommand, if_true, PortUnit.endDoze_queue]
    split <;> rfl
  simp only [PortUnit.IrqArgsInvalid, PortUnit.arg8, State.args_handCommand, depth]

theorem PortUnit.irqArgsInvalid_iff {u : PortUnit} :
    u.IrqArgsInvalid ↔ 1 < (u.args[0]).toNat ∨ 1 < (u.args[1]).toNat ∨ 1 < (u.args[2]).toNat ∨ u.args[3] = 0 ∨
      u.queue.depth < (u.args[3]).toNat := by
  have zero : u.args[3] = 0 ↔ (u.args[3]).toNat = 0 := by simp [BitVec.toNat_eq]
  rw [zero]
  rfl

/-- Settles O19: the arguments are read in the state handed to the command. -/
theorem ownSettings : Obligations.OwnSettings := by
  refine ⟨fun p v s h hj => ?_, fun p v s h hj => ?_, fun p v s h hj => ?_⟩
  · have answer := h.ownSettings rfl v hj
    refine ⟨fun hbad => ?_, fun n hn ho => ?_⟩
    · rw [Refuses, ← Command.instr.eq_7, answer, Command.body,
        State.setFilterBody_of_invalid (by rw [State.arg8_handCommand, State.arg8_handCommand]; exact hbad)]
      rfl
    · rw [← Command.instr.eq_7, answer, Command.body, State.setFilterBody_of_valid
        (by rw [State.arg8_handCommand]; exact hn) (by rw [State.arg8_handCommand]; exact ho)]
      simp only [PortUnit.filterArgs, State.arg8_handCommand, State.arg24_handCommand]
      rfl
  · have answer := h.ownSettings rfl v hj
    refine ⟨fun hbad => ?_, fun n hn => ?_⟩
    · rw [Refuses, ← Command.instr.eq_8, answer, Command.body, State.clearFilterBody, State.arg8_handCommand,
        filterArg_of_gt (b := (s.port p).arg8 0) hbad]
      rfl
    · rw [← Command.instr.eq_8, answer, Command.body, State.clearFilterBody, State.arg8_handCommand,
        filterArg_of_eq (b := (s.port p).arg8 0) hn]
      rfl
  · have answer := h.ownSettings rfl v hj
    refine ⟨fun hbad => ?_, fun hgood => ?_⟩
    · rw [Refuses, ← Command.instr.eq_9, answer, Command.body, State.setIrqBody_of_invalid
        (PortUnit.irqArgsInvalid_handCommand.mpr (PortUnit.irqArgsInvalid_iff.mpr hbad))]
      rfl
    · rw [← Command.instr.eq_9, answer, Command.body, State.setIrqBody_of_valid
        (mt (PortUnit.irqArgsInvalid_handCommand.trans PortUnit.irqArgsInvalid_iff).mp hgood)]
      simp only [State.arg8_handCommand]
      rfl

/-! ### LOOKUP (R3) -/

theorem State.setResult_handCommand (s : State) (p : Port) (x : Result) (d : List Byte) :
    (s.handCommand p).setResult p x d =
      s.updatePort p fun _ => { (s.handCommand p).port p with result := x, rdata := rdataOf d } := by
  simp only [State.setResult, State.port_handCommand, if_true]
  rw [State.handCommand, State.updatePort_updatePort]
  rfl

theorem State.slotWithKey_eq_none {key : Key} (h : ∀ k, ∀ r ∈ s.record k, r.key ≠ key) : s.slotWithKey key = none := by
  rw [← Option.not_isSome_iff_eq_none, State.slotWithKey_isSome_iff]
  rintro ⟨k, r, hr, hkey⟩
  exact h k r hr hkey

theorem State.slotWithKey_eq_some {key : Key} {k : SlotNo} {r : Record} (hr : s.record k = some r) (hkey : r.key = key)
    (h : ∀ j, ∀ x ∈ s.record j, x.key = key → j = k) : s.slotWithKey key = some k := by
  cases found : s.slotWithKey key with
  | none =>
    have held := State.slotWithKey_isSome_iff.mpr ⟨k, r, hr, hkey⟩
    rw [found] at held
    cases held
  | some j =>
    have holds := List.find?_some found
    cases hj : s.record j with
    | none => simp [hj] at holds
    | some x => rw [h j x hj (by simpa [hj] using holds)]

theorem Record.producerByte_eq (r : Record) :
    r.life.producerByte =
      match r.producer with
      | some .a => 0
      | some .b => 1
      | some .c => 2
      | some .d => 3
      | none => 0xFF := by
  unfold Record.producer Life.producerByte
  cases r.life with
  | produced _ q _ => cases q <;> rfl
  | orphaned _ => rfl

/-- Settles O25: the result is all that LOOKUP writes. -/
theorem lookupReports : Obligations.LookupReports := by
  refine ⟨fun p v s h hno => ?_, fun p v k r s h hr hkey hone => ?_⟩
  · have body : (s.handCommand p).lookupBody p = .take (s.handCommand p) [0xFF] := by
      rw [State.lookupBody, State.lookupData, State.arg24_handCommand, State.slotWithKey_eq_none]
      simp only [State.record_handCommand]
      exact hno
    rw [← Command.instr.eq_13, h.takes rfl v body, State.setResult_handCommand]
    rfl
  · have found : (s.handCommand p).slotWithKey ((s.port p).arg24 0 1 2) = some k :=
      State.slotWithKey_eq_some (by rw [State.record_handCommand, hr]) hkey
        (by simp only [State.record_handCommand]; exact fun j x hx e => hone j x hx (e.trans hkey.symm))
    have body : (s.handCommand p).lookupBody p =
        .take (s.handCommand p)
          ([BitVec.ofNat 8 k.val, (s.slot k).incarnation, r.life.code, r.life.producerByte, BitVec.ofNat 8 r.depth,
            BitVec.ofNat 8 r.versions.length] ++ bytes32 r.lastSequence) := by
      rw [State.lookupBody, State.lookupData, State.arg24_handCommand, found]
      simp only [State.record_handCommand, hr, State.slot_handCommand]
    rw [← Command.instr.eq_13, h.takes rfl v body, State.setResult_handCommand, bytes32_eq, Record.producerByte_eq]
    rfl

end Sys2Proof.Machine
end

section
/-! PROOF. Commands on slots: the checks of the slot and of the producer, and how records begin and end (R5, R15 to R24,
R157). -/

namespace Sys2Proof.Machine

variable {p q : Port} {s t : State} {k : SlotNo} {r : Record}

/-! ### The slot check and the producer check (R5, R18) -/

theorem slotArg_of_gt {b : Byte} (h : 63 < b.toNat) : slotArg b = none := dif_neg (by omega)

theorem slotArg_of_eq {b : Byte} (h : b.toNat = k.val) : slotArg b = some k := by
  rw [slotArg, dif_pos (by omega)]
  exact congrArg some (Fin.ext h)

theorem State.checkSlot_of_gt {a b : Byte} (h : 63 < a.toNat) : s.checkSlot a b = .error .badArg := by
  simp only [State.checkSlot, slotArg_of_gt h]

theorem State.checkSlot_of_gone {a b : Byte} (h : a.toNat = k.val) (hg : s.record k = none ∨ (s.slot k).incarnation ≠ b) :
    s.checkSlot a b = .error .gone := by
  simp only [State.checkSlot, slotArg_of_eq h]
  obtain free | other := hg
  · rw [free]
  · split
    · rfl
    · rw [if_neg other]

theorem State.checkProducer_of_error {a b : Byte} {e : Result} (h : s.checkSlot a b = .error e) :
    s.checkProducer p a b = .error e := by
  simp only [State.checkProducer, h]

theorem State.checkProducer_of_other {a b : Byte} (h : s.checkSlot a b = .ok (k, r)) (hp : r.producer ≠ some p) :
    s.checkProducer p a b = .error .notProducer := by
  simp only [State.checkProducer, h, if_neg hp]

theorem State.checkSlot_handCommand (a b : Byte) : (s.handCommand p).checkSlot a b = s.checkSlot a b := by
  simp only [State.checkSlot, State.record_handCommand, State.slot_handCommand]

theorem State.checkProducer_handCommand (a b : Byte) : (s.handCommand p).checkProducer q a b = s.checkProducer q a b := by
  simp only [State.checkProducer, State.checkSlot_handCommand]

theorem State.Names.checkSlot (h : s.Names p k r) : s.checkSlot ((s.port p).arg8 0) ((s.port p).arg8 1) = .ok (k, r) := by
  obtain ⟨hk, hr, hi⟩ := h
  exact State.checkSlot_ok.mpr ⟨hk, hr, hi⟩

theorem State.Names.checkProducer (h : s.Names p k r) (hp : r.producer = some p) :
    s.checkProducer p ((s.port p).arg8 0) ((s.port p).arg8 1) = .ok (k, r) :=
  State.checkProducer_ok.mpr ⟨h.checkSlot, hp⟩

/-- A command taken in hand names what it named before. -/
theorem State.Names.handCommand (h : s.Names p k r) : (s.handCommand p).Names p k r := by
  simpa only [State.Names, State.args_handCommand, State.record_handCommand, State.slot_handCommand] using h

/-- The commands whose block begins with the producer check. -/
theorem Command.body_of_checkProducer {c : Command} {e : Result}
    (hc : c ∈ [Command.release, .openUpdate, .selectStage, .abandon, .commit, .clearWatch])
    (h : s.checkProducer p ((s.port p).arg8 0) ((s.port p).arg8 1) = .error e) : c.body p s = .refuse e := by
  simp only [List.mem_cons, List.not_mem_nil, or_false] at hc
  obtain rfl | rfl | rfl | rfl | rfl | rfl := hc
  · simp only [Command.body, State.releaseBody, h]
  · simp only [Command.body, State.openUpdateBody, h]
  · simp only [Command.body, State.selectStageBody, h]
  · simp only [Command.body, State.abandonBody, h]
  · simp only [Command.body, State.commitBody, h]
  · simp only [Command.body, State.clearWatchBody, h]

/-- The commands whose block begins with the slot check, or with the producer check and so with the slot check. -/
theorem Command.body_of_checkSlot {c : Command} {e : Result}
    (hc : c ∈ [Command.release, .openUpdate, .selectStage, .abandon, .commit, .clearWatch, .request, .cancelRequest])
    (h : s.checkSlot ((s.port p).arg8 0) ((s.port p).arg8 1) = .error e) : c.body p s = .refuse e := by
  by_cases hr : c = .request
  · subst hr
    simp only [Command.body, State.requestBody, h]
  by_cases hq : c = .cancelRequest
  · subst hq
    simp only [Command.body, State.cancelRequestBody, h]
  refine Command.body_of_checkProducer ?_ (State.checkProducer_of_error h)
  simpa [hr, hq] using hc

theorem Command.body_of_badSlot {c : Command}
    (hc : c ∈ [Command.release, .openUpdate, .selectStage, .abandon, .commit, .setWatch, .clearWatch, .fetch, .request,
      .cancelRequest])
    (h : 63 < ((s.port p).arg8 0).toNat) : c.body p s = .refuse .badArg := by
  by_cases hw : c = .setWatch
  · subst hw
    simp only [Command.body, State.setWatchBody, slotArg_of_gt h]
  by_cases hf : c = .fetch
  · subst hf
    simp only [Command.body, State.fetchBody, slotArg_of_gt h]
  refine Command.body_of_checkSlot ?_ (State.checkSlot_of_gt h)
  simp only [List.mem_cons, List.not_mem_nil, or_false, hw, hf, false_or] at hc ⊢
  exact hc

/-- Settles O22: each command's block makes the checks on the arguments as they stand in the state handed to it. -/
theorem slotAndProducerChecks : Obligations.SlotAndProducerChecks := by
  intro c p v s h
  have cls : ∀ {l : List Command}, (∀ x ∈ l, x.cls = .slot) → c ∈ l → c.cls = .slot := fun hl hc => hl c hc
  refine ⟨fun hc hbad => ?_, fun k hk => ⟨fun hc hgone => ?_, fun hc r hr hi hp => ?_⟩⟩
  · refine h.refuses (cls (by decide) hc) v (Command.body_of_badSlot hc ?_)
    rw [State.arg8_handCommand]
    exact hbad
  · refine h.refuses (cls (by decide) hc) v (Command.body_of_checkSlot (e := .gone) ?_ ?_)
    · simp only [List.mem_cons, List.not_mem_nil, or_false] at hc ⊢
      exact hc
    · rw [State.arg8_handCommand, State.arg8_handCommand, State.checkSlot_handCommand]
      exact State.checkSlot_of_gone hk hgone
  · refine h.refuses (cls (by decide) hc) v (Command.body_of_checkProducer hc ?_)
    rw [State.arg8_handCommand, State.arg8_handCommand, State.checkProducer_handCommand]
    exact State.checkProducer_of_other (State.checkSlot_ok.mpr ⟨hk, hr, hi⟩) hp

/-! ### A job admitted by a command taken in hand -/

theorem State.etc_handCommand (s : State) (p : Port) : (s.handCommand p).etc = s.etc := by
  simp

theorem State.free_handCommand (s : State) (p : Port) : (s.handCommand p).free = s.free := by
  simp

theorem State.subject_handCommand (s : State) (p : Port) (k : SlotNo) (r : Record) :
    (s.handCommand p).subject k r = s.subject k r := by
  simp only [State.subject, State.slot_handCommand]

theorem State.admitJob_of_jobs {l : List Job} (h : s.jobs = l) (j : Job) :
    s.admitJob j = State.grant { s with jobs := l ++ [j] } := by
  subst h
  rfl

/-! ### ADOPT (R23, R24) -/

theorem State.orphanWithKey_eq_none {key : Key} (h : ∀ k, ∀ r ∈ s.record k, r.key = key → r.isOrphan = false) :
    s.orphanWithKey key = none := by
  refine List.find?_eq_none.mpr fun k _ => ?_
  cases hr : s.record k with
  | none => simp
  | some r =>
    have := h k r hr
    simp only [Bool.and_eq_true, beq_iff_eq, not_and, Bool.not_eq_true]
    exact this

theorem State.orphanWithKey_eq_some {key : Key} (hr : s.record k = some r) (hkey : r.key = key)
    (ho : r.isOrphan = true) (h : ∀ j, ∀ x ∈ s.record j, x.key = key → j = k) : s.orphanWithKey key = some k := by
  cases found : s.orphanWithKey key with
  | none =>
    have absent := List.find?_eq_none.mp found k (mem_allSlots k)
    simp [hr, hkey, ho] at absent
  | some j =>
    have holds := List.find?_some found
    cases hj : s.record j with
    | none => simp [hj] at holds
    | some x =>
      simp only [hj, Bool.and_eq_true, beq_iff_eq] at holds
      rw [h j x hj holds.1]

theorem State.adoptBody_of_found {key : Key} (hkey : (s.port p).arg24 0 1 2 = key) (hf : s.orphanWithKey key = some k)
    (hr : s.record k = some r) :
    s.adoptBody p =
      if s.hasRoom then
        .take ((s.setRecord k (some (r.adopted p s.etc))).admitJob (.adopt (s.subject k r) p s.etc))
          [BitVec.ofNat 8 k.val, (s.slot k).incarnation]
      else .refuse .retry := by
  simp only [State.adoptBody, hkey, hf, hr]

/-- Settles O24: the search for an orphan and the admission read the state handed to the command. -/
theorem adoptTakesOverAnOrphan : Obligations.AdoptTakesOverAnOrphan := by
  refine ⟨fun p v s h hno => ?_, fun p v k r s h hr hkey ho hone => ?_⟩
  · refine h.refuses rfl v ?_
    have none : (s.handCommand p).orphanWithKey ((s.port p).arg24 0 1 2) = none :=
      State.orphanWithKey_eq_none (by simp only [State.record_handCommand]; exact hno)
    simp only [Command.body, State.adoptBody, State.arg24_handCommand, none]
  · have found : (s.handCommand p).orphanWithKey r.key = some k :=
      State.orphanWithKey_eq_some (by rw [State.record_handCommand, hr]) rfl ho
        (by simpa only [State.record_handCommand] using hone)
    have body := State.adoptBody_of_found ((State.arg24_handCommand s p 0 1 2).trans hkey.symm) found
      ((State.record_handCommand s p k).trans hr)
    rw [State.hasRoom_handCommand, State.etc_handCommand, State.subject_handCommand, State.slot_handCommand] at body
    refine ⟨fun hfull => h.refuses rfl v ?_, fun hroom => ?_⟩
    · rw [Command.body, body, if_neg (by rw [State.hasRoom_iff]; omega)]
    · rw [if_pos (State.hasRoom_iff.mpr hroom)] at body
      have taken := h.takes rfl v body
      rw [State.admitJob_of_jobs (l := s.jobs)] at taken
      · exact taken
      · simp

/-! ### CLAIM taken (R16, R17) -/

/-- The first index with a property is the one that a search finds. -/
theorem find?_finRange {n : Nat} {f : Fin n → Bool} {i : Fin n} (hi : f i = true) (hmin : ∀ j, j < i → f j = false) :
    (List.finRange n).find? f = some i := by
  refine List.find?_eq_some_iff_getElem.mpr ⟨hi, i.val, by simp, by simp, fun j hj => ?_⟩
  simp only [List.getElem_finRange, Bool.not_eq_true']
  exact hmin _ hj

theorem State.lowestFreeSlot_eq_some (hk : s.record k = none) (hmin : ∀ j, j < k → s.record j ≠ none) :
    s.lowestFreeSlot = some k :=
  find?_finRange (by rw [hk]; rfl) fun j hj => Option.isNone_eq_false_iff.mpr (Option.isSome_iff_ne_none.mpr (hmin j hj))

theorem State.claimBody_of_taken {depth : Nat} {now : Time} {c : CellNo} {spares rest : List CellNo} (hargs : (s.port p).ClaimArgsValid)
    (hkey : ¬ s.ClaimKeyHeld p) (hk : s.lowestFreeSlot = some k) (hdepth : ((s.port p).arg8 3).toNat = depth)
    (hfree : s.free = c :: (spares ++ rest)) (hspares : spares.length = depth) (hroom : s.hasRoom = true)
    (hnow : s.etc = now) :
    s.claimBody p =
      .take ((State.setSlot { s with free := rest } k
          { incarnation := (s.slot k).incarnation + 1,
            record := some (claimedRecord p ((s.port p).arg24 0 1 2) depth ((s.port p).arg32 4 5 6 7)
              ((s.port p).arg8 8 == 1) now c spares) }).admitJob
          (.appear { key := (s.port p).arg24 0 1 2, slot := k, incarnation := (s.slot k).incarnation + 1 } p now))
        [BitVec.ofNat 8 k.val, (s.slot k).incarnation + 1] := by
  subst hdepth hnow
  obtain ⟨_, hrange⟩ := PortUnit.claimArgsValid_iff.mp hargs
  obtain ⟨_, _, _, hauto⟩ := hargs
  have hsearch := Bool.eq_false_iff.mpr (mt State.slotWithKey_isSome_iff.mp hkey)
  have enough : ¬ (c :: (spares ++ rest)).length < ((s.port p).arg8 3).toNat + 1 := by
    rw [List.length_cons, List.length_append, hspares]
    omega
  simp only [State.claimBody, boolArg_of_le hauto, hrange, hsearch, if_false, Bool.false_eq_true, hk, enough, hroom, if_true,
    State.claimSlot, hfree, List.take_left' hspares, List.drop_left' hspares]

/-- Settles O21: the block finds in the state handed to it the arguments, the key, the slot and the pool as they stood. -/
theorem claimTakesTheLowestFreeSlot : Obligations.ClaimTakesTheLowestFreeSlot := by
  intro p v k c spares rest s h u depth key period inc hlow hhigh hperiod hauto hkey hk hmin hfree hspares hroom
  have body := State.claimBody_of_taken (s := s.handCommand p) (p := p) (k := k) (depth := depth) (c := c) (spares := spares)
    (rest := rest) (State.claimArgsValid_handCommand.mpr ⟨hlow, hhigh, hperiod, hauto⟩)
    (mt State.claimKeyHeld_handCommand.mp fun ⟨j, x, hx, hj⟩ => hkey j x hx hj)
    (State.lowestFreeSlot_eq_some (by rw [State.record_handCommand, hk]) (by simpa only [State.record_handCommand] using hmin))
    (congrArg BitVec.toNat (State.arg8_handCommand s p 3)) (by rw [State.free_handCommand, hfree]) hspares
    (by rw [State.hasRoom_handCommand, State.hasRoom_iff]; exact hroom) (State.etc_handCommand s p)
  rw [State.slot_handCommand, State.arg24_handCommand, State.arg32_handCommand,
    State.arg8_handCommand] at body
  have taken := h.takes rfl v body
  rw [State.admitJob_of_jobs (l := s.jobs)] at taken
  · exact taken
  · simp

end Sys2Proof.Machine
end

section
/-! PROOF. Records that end or lose their producer: what such an event leaves around it, RELEASE and ORPHANING (R18 to
R21, R101, R142, R157). -/

namespace Sys2Proof.Machine

variable {p q : Port} {s t u : State} {k : SlotNo} {r : Record}

/-! ### What stays around one port -/

/-- Of the ports only `p` has changed, and of that not the fetch state; the shared fields, the jobs and the path are as
they were. -/
structure State.SameAround (p : Port) (s u : State) : Prop where
  shared : SharedKept s u
  others : ∀ q, q ≠ p → u.port q = s.port q
  fetch : (u.port p).fetch = (s.port p).fetch
  jobs : u.jobs = s.jobs
  path : u.path = s.path
  last : u.lastGranted = s.lastGranted

theorem State.SameAround.fetch_eq (h : s.SameAround p u) (q : Port) : (u.port q).fetch = (s.port q).fetch := by
  by_cases hq : q = p
  · rw [hq, h.fetch]
  · rw [h.others q hq]

/-- A grant changes no port but its copy phase (R94, R101). -/
theorem State.port_grant_kept (s : State) (q : Port) :
    { s.grant.port q with fetch := (s.port q).fetch } = s.port q ∧ FetchKept (s.port q).fetch (s.grant.port q).fetch := by
  obtain same | granted := s.port_grant q
  · rw [same]
    exact ⟨rfl, .refl _⟩
  · rw [granted]
    exact ⟨rfl, .granted _⟩

/-- The admission of a job, and the grant that it asks for, seen from the state before the event (R53, R101). -/
theorem State.SameAround.admitJob (h : s.SameAround p u) (j : Job) :
    (u.admitJob j).jobs = s.jobs ++ [j] ∧ { (u.admitJob j).port p with fetch := (s.port p).fetch } = u.port p ∧
      PathGranted { s with jobs := (u.admitJob j).jobs } (u.admitJob j) ∧
      FetchKept (s.port p).fetch ((u.admitJob j).port p).fetch ∧ OtherPortsKept p s (u.admitJob j) ∧
      SharedKept s (u.admitJob j) := by
  have ports : ∀ q, (State.port { u with jobs := u.jobs ++ [j] } q) = u.port q := fun q => by cases q <;> rfl
  have kept : ∀ q, { (u.admitJob j).port q with fetch := (u.port q).fetch } = u.port q ∧
      FetchKept (u.port q).fetch ((u.admitJob j).port q).fetch := by
    intro q
    have := State.port_grant_kept { u with jobs := u.jobs ++ [j] } q
    rwa [ports q] at this
  refine ⟨by rw [State.admitJob_jobs, h.jobs], ?_, ?_, ?_, fun q hq => ?_, ?_⟩
  · rw [← h.fetch]
    exact (kept p).1
  · refine PathGranted.of_agree (State.admitJob_jobs u j) h.path.symm h.last.symm fun q => ?_
    rw [ports q, h.fetch_eq q]
    cases q <;> rfl
  · rw [← h.fetch]
    exact (kept p).2
  · rw [← h.others q hq]
    exact kept q
  · simpa [SharedKept] using h.shared

theorem State.setResult_admitJob (s : State) (p : Port) (x : Result) (d : List Byte) (j : Job) :
    (s.admitJob j).setResult p x d = (s.setResult p x d).admitJob j := by
  refine (State.grant_updatePort { s with jobs := s.jobs ++ [j] } p
    (f := fun u => { u with result := x, rdata := rdataOf d }) fun _ _ => rfl).symm.trans ?_
  cases p <;> rfl

/-! ### The requesters that wait on a slot (R142) -/

theorem State.requestersOn_congr (he : ∀ i, t.entry i = s.entry i)
    (hi : (t.slot k).incarnation = (s.slot k).incarnation) : t.requestersOn k = s.requestersOn k := by
  have entries : t.entry = s.entry := funext he
  simp only [State.requestersOn, State.waitingEntries, entries, hi]

theorem State.requestersOn_eq (s : State) (k : SlotNo) :
    s.requestersOn k =
      (List.finRange 16).filterMap fun i => match s.requests[i] with
        | some e => if e.slot = k ∧ e.incarnation = (s.slot k).incarnation then some e.requester else none
        | none => none := by
  rw [State.requestersOn, State.waitingEntries, ← List.filterMap_eq_filter, ← List.filterMap_eq_map, List.filterMap_filterMap,
    List.filterMap_filterMap, allEntries]
  refine List.filterMap_congr fun i _ => ?_
  rw [State.entry]
  cases s.requests[i] with
  | none => rfl
  | some e =>
    simp only [Option.bind_some, Option.guard, Entry.waitsOn_iff]
    split <;> rfl

/-! ### A slot freed (R19) -/

theorem CellsFreed.freeSlot (h : s.record k = some r) : CellsFreed r s (s.freeSlot k) := by
  refine ⟨by simp, ?_⟩
  cases hn : r.next with
  | staging c x =>
    simp only [State.freeSlot, h, hn]
    exact ⟨.refl _, .refl _⟩
  | owed c =>
    simp only [State.freeSlot, h, hn]
    exact ⟨.refl _, .refl _⟩

/-- The update of a record, open or closed, plays no part in what becomes of its cells. -/
theorem CellsFreed.of_closed (h : CellsFreed r.closed s t) : CellsFreed r s t := by
  obtain ⟨key, depth, versions, next, spares, last, period, auto, life, watch⟩ := r
  cases next <;> exact h

theorem CellsFreed.of_agree {v : State} (h : CellsFreed r u v) (hc : u.cells = s.cells) (hf : u.free = s.free)
    (hd : u.detached = s.detached) (tc : t.cells = v.cells) (tf : t.free = v.free) (td : t.detached = v.detached) :
    CellsFreed r s t := by
  have cell : u.cell = s.cell := by
    funext c
    rw [State.cell, State.cell, hc]
  simpa only [CellsFreed, cell, hc, hf, hd, ← tc, ← tf, ← td] using h

theorem State.slot_eq_of {j : SlotNo} (hi : (t.slot j).incarnation = (s.slot j).incarnation)
    (hr : t.record j = s.record j) : t.slot j = s.slot j := by
  unfold State.record at hr
  generalize t.slot j = x at *
  generalize s.slot j = y at *
  cases x
  cases y
  simp_all

/-! ### RELEASE (R18 to R20) -/

/-- The record of a slot ended by its producer, before the job about it joins the queue. -/
def State.released (s : State) (p : Port) (k : SlotNo) : State := ((s.closeUpdate p k).endEntriesOn k).freeSlot k

theorem State.withdrawSlot_closeUpdate (s : State) (p : Port) (k : SlotNo) (r : Record) :
    (s.closeUpdate p k).withdrawSlot k r =
      (s.released p k).admitJob (.withdraw (s.subject k r) r.lastSequence s.etc (s.requestersOn k)) := by
  have requesters : (s.closeUpdate p k).requestersOn k = s.requestersOn k :=
    State.requestersOn_congr (State.entry_closeUpdate s p k) (State.incarnation_closeUpdate s p k k)
  have about : (s.closeUpdate p k).subject k r = s.subject k r := by
    simp only [State.subject, State.incarnation_closeUpdate]
  have now : (s.closeUpdate p k).etc = s.etc := by simp
  simp only [State.withdrawSlot, requesters, about, now]
  rfl

theorem State.released_record :
    (s.released p k).record k = none ∧ ((s.released p k).slot k).incarnation = (s.slot k).incarnation ∧
      ∀ j, j ≠ k → (s.released p k).slot j = s.slot j := by
  refine ⟨by simp [State.released], by simp [State.released], fun j hj => State.slot_eq_of ?_ ?_⟩
  · simp [State.released]
  · simp [State.released, hj]

theorem CellsFreed.released (h : s.record k = some r) : CellsFreed r s (s.released p k) := by
  have hk : ((s.closeUpdate p k).endEntriesOn k).record k = some r.closed := by simp [h]
  exact (CellsFreed.freeSlot hk).of_closed.of_agree (by simp) (by simp) (by simp) rfl rfl rfl

theorem EntriesRemoved.released :
    EntriesRemoved (fun e => e.slot == k && e.incarnation == (s.slot k).incarnation) s (s.released p k) := by
  intro i
  simp only [State.released, State.entry_freeSlot, State.entry_endEntriesOn, State.entry_closeUpdate,
    State.incarnation_closeUpdate, Entry.waitsOn]

theorem State.port_released (s : State) (p q : Port) (k : SlotNo) :
    (s.released p k).port q = if q = p then (s.port q).dropOpen k else s.port q := by
  simp only [State.released, State.port_freeSlot, State.port_endEntriesOn, State.port_closeUpdate]

theorem State.SameAround.released (s : State) (p : Port) (k : SlotNo) : s.SameAround p (s.released p k) where
  shared := by simp [SharedKept, State.released]
  others q hq := by rw [State.port_released, if_neg hq]
  fetch := by rw [State.port_released, if_pos rfl]; rfl
  jobs := by simp [State.released]
  path := by simp [State.released]
  last := by simp [State.released]

theorem State.SameAround.trans (h : s.SameAround p t) (h' : t.SameAround p u) : s.SameAround p u where
  shared := by
    obtain ⟨a, b, c, d, e, f, g, i, j, k, l⟩ := h.shared
    have := h'.shared
    simpa only [SharedKept, a, b, c, d, e, f, g, i, j, k, l] using this
  others q hq := (h'.others q hq).trans (h.others q hq)
  fetch := h'.fetch.trans h.fetch
  jobs := h'.jobs.trans h.jobs
  path := h'.path.trans h.path
  last := h'.last.trans h.last

/-- A command taken in hand. -/
theorem State.SameAround.handCommand (s : State) (p : Port) : s.SameAround p (s.handCommand p) where
  shared := by simp [SharedKept]
  others q hq := by rw [State.port_handCommand, if_neg hq]
  fetch := by simp
  jobs := by simp
  path := by simp
  last := by simp

theorem State.SameAround.setResult (s : State) (p : Port) (x : Result) (d : List Byte) :
    s.SameAround p (s.setResult p x d) where
  shared := by simp [SharedKept]
  others q hq := by rw [State.port_setResult, if_neg hq]
  fetch := by simp
  jobs := by simp
  path := by simp
  last := by simp

theorem State.openList_handCommand (s : State) (p : Port) : ((s.handCommand p).port p).openList = (s.port p).openList := by
  simp

theorem State.stagingPointer_handCommand (s : State) (p : Port) :
    ((s.handCommand p).port p).stagingPointer = (s.port p).stagingPointer := by
  simp

theorem State.requestersOn_handCommand (s : State) (p : Port) (k : SlotNo) :
    (s.handCommand p).requestersOn k = s.requestersOn k :=
  State.requestersOn_congr (State.entry_handCommand s p) (by rw [State.slot_handCommand])

/-- What RELEASE leaves of a state, before its job joins the queue. -/
def State.releaseTaken (s : State) (p : Port) (k : SlotNo) : State := ((s.handCommand p).released p k).setResult p .ok []

theorem State.releaseBody_of_named (hn : s.Names p k r) (hp : r.producer = some p) :
    (s.handCommand p).releaseBody p =
      if s.hasRoom then
        .take (((s.handCommand p).released p k).admitJob
          (.withdraw (s.subject k r) r.lastSequence s.etc (s.requestersOn k))) []
      else .refuse .retry := by
  simp only [State.releaseBody, hn.handCommand.checkProducer hp, State.hasRoom_handCommand, State.withdrawSlot_closeUpdate,
    State.subject_handCommand, State.etc_handCommand, State.requestersOn_handCommand]

theorem State.SlotCommand.release_taken (h : s.SlotCommand p .release) (hn : s.Names p k r) (hp : r.producer = some p)
    (hr : s.jobs.length < 16) (v : Byte) :
    exec (.release p v) s =
      .next ((s.releaseTaken p k).admitJob (.withdraw (s.subject k r) r.lastSequence s.etc (s.requestersOn k))) := by
  have body := State.releaseBody_of_named hn hp
  rw [if_pos (State.hasRoom_iff.mpr hr)] at body
  rw [← Command.instr.eq_11, h.takes rfl v body, State.setResult_admitJob]
  rfl

theorem State.port_releaseTaken (s : State) (p : Port) (k : SlotNo) :
    (s.releaseTaken p k).port p =
      { (s.handCommand p).port p with
        openList := (s.port p).openList.filter (fun j => j != k),
        stagingPointer := if (s.port p).stagingPointer = some k then none else (s.port p).stagingPointer,
        result := .ok, rdata := Vector.replicate 10 0 } := by
  rw [State.releaseTaken, State.port_setResult, if_pos rfl, State.port_released, if_pos rfl, PortUnit.dropOpen,
    State.openList_handCommand, State.stagingPointer_handCommand, rdataOf_nil]

theorem State.SameAround.releaseTaken (s : State) (p : Port) (k : SlotNo) : s.SameAround p (s.releaseTaken p k) :=
  ((State.SameAround.handCommand s p).trans (.released _ p k)).trans (.setResult _ p _ _)

theorem EntriesRemoved.releaseTaken :
    EntriesRemoved (fun e => e.slot == k && e.incarnation == (s.slot k).incarnation) s (s.releaseTaken p k) := by
  intro i
  have removed := EntriesRemoved.released (s := s.handCommand p) (p := p) (k := k) i
  rw [State.entry_handCommand, State.slot_handCommand] at removed
  rw [State.releaseTaken, State.entry_setResult, removed]

theorem CellsFreed.releaseTaken (h : s.record k = some r) (j : Job) :
    CellsFreed r s ((s.releaseTaken p k).admitJob j) :=
  (CellsFreed.released (s := s.handCommand p) (p := p) ((State.record_handCommand s p k).trans h)).of_agree (by simp)
    (by simp) (by simp) (by simp [State.releaseTaken]) (by simp [State.releaseTaken]) (by simp [State.releaseTaken])

/-- Settles O23: the end of the record, then the admission of its job. -/
theorem releaseEndsTheRecord : Obligations.ReleaseEndsTheRecord := by
  refine ⟨fun p v k r s h hn hp => ⟨fun hfull => h.refuses rfl v ?_, fun hroom => ?_⟩, fun k s => s.requestersOn_eq k⟩
  · have noRoom : ¬ s.hasRoom = true := by
      rw [State.hasRoom_iff]
      omega
    rw [Command.body, State.releaseBody_of_named hn hp, if_neg noRoom]
  · obtain ⟨_, hr, _⟩ := id hn
    refine ⟨_, h.release_taken hn hp hroom v, ?_⟩
    have around := (State.SameAround.releaseTaken s p k).admitJob
      (.withdraw (s.subject k r) r.lastSequence s.etc (s.requestersOn k))
    rw [State.port_releaseTaken] at around
    refine ⟨?_, CellsFreed.releaseTaken hr _, fun i => ?_, around⟩
    · simpa only [State.record_admitJob, State.slot_admitJob, State.releaseTaken, State.record_setResult, State.slot_setResult,
        State.slot_handCommand] using State.released_record (s := s.handCommand p) (p := p) (k := k)
    · rw [State.entry_admitJob]
      exact EntriesRemoved.releaseTaken i

/-! ### ORPHANING (R21, R157) -/

/-- The state after a slot of a LEAVING port was orphaned, before the job about it joins the queue. -/
def State.orphanTaken (s : State) (p : Port) (k : SlotNo) (r : Record) : State := (s.endEntriesOn k).orphaned p k r

theorem State.settleLeaving_orphanSlot (s : State) (p : Port) (k : SlotNo) (r : Record) :
    (s.orphanSlot k r).settleLeaving p =
      (s.orphanTaken p k r).admitJob (.orphan (s.subject k r) r.lastSequence s.etc (s.requestersOn k)) :=
  State.settleLeaving_admitJob _ p _

theorem State.producer_orphan (s : State) (k j : SlotNo) (r : Record) (now : Time) :
    (s.setRecord k (some { r with life := .orphaned now })).producer j = if j = k then none else s.producer j := by
  rw [State.producer, State.producer, State.record_setRecord_eq]
  by_cases hj : j = k
  · simp only [hj, if_true]
    rfl
  · simp only [hj, if_false]

/-- An orphaned slot is no longer its port's, which keeps the others (R157). -/
theorem State.producedSlots_orphan (s : State) (p : Port) (k : SlotNo) (r : Record) (now : Time) :
    (s.setRecord k (some { r with life := .orphaned now })).producedSlots p = [] ↔ ∀ j, s.producer j = some p → j = k := by
  rw [State.producedSlots_eq_nil, State.Produces, not_exists]
  refine forall_congr' fun j => ?_
  rw [State.producer_orphan]
  by_cases hj : j = k
  · simp [hj]
  · simp [hj]

theorem State.port_orphanTaken (hl : (s.port p).state = .leaving) :
    (s.orphanTaken p k r).port p =
      { s.port p with state := if ∀ j, s.producer j = some p → j = k then .offline else .leaving } := by
  have produced : ∀ j, (s.endEntriesOn k).producer j = s.producer j := fun j => by
    rw [State.producer, State.producer, State.record_endEntriesOn]
  rw [State.orphanTaken, State.orphaned, State.port_settleLeaving]
  simp only [State.port_setRecord, State.port_endEntriesOn, hl, true_and, State.producedSlots_orphan, produced]

theorem State.SameAround.orphanTaken (s : State) (p : Port) (k : SlotNo) (r : Record) :
    s.SameAround p (s.orphanTaken p k r) where
  shared := by simp [SharedKept, State.orphanTaken, State.orphaned]
  others q hq := by simp [State.orphanTaken, State.orphaned, State.port_settleLeaving, hq]
  fetch := by simp [State.orphanTaken, State.orphaned]
  jobs := by simp [State.orphanTaken]
  path := by simp [State.orphanTaken]
  last := by simp [State.orphanTaken, State.orphaned]

theorem State.record_orphanTaken (s : State) (p : Port) (k : SlotNo) (r : Record) :
    (s.orphanTaken p k r).record k = some { r with life := .orphaned s.etc } ∧
      ((s.orphanTaken p k r).slot k).incarnation = (s.slot k).incarnation ∧
      ∀ j, j ≠ k → (s.orphanTaken p k r).slot j = s.slot j := by
  refine ⟨by simp [State.orphanTaken, State.orphaned], by simp [State.orphanTaken, State.orphaned], fun j hj => ?_⟩
  simp [State.orphanTaken, State.orphaned, hj]

theorem EntriesRemoved.orphanTaken :
    EntriesRemoved (fun e => e.slot == k && e.incarnation == (s.slot k).incarnation) s (s.orphanTaken p k r) := by
  intro i
  simp only [State.orphanTaken, State.orphaned, State.entry_settleLeaving, State.entry_setRecord, State.entry_endEntriesOn,
    Entry.waitsOn]

/-- The lowest slot that a port produces is the first of its slots (R157). -/
theorem State.producedSlots_head (hr : s.record k = some r) (hp : r.producer = some p)
    (hmin : ∀ j, j < k → s.producer j ≠ some p) : (s.producedSlots p).head? = some k := by
  rw [State.producedSlots, List.head?_filter]
  refine find?_finRange ?_ fun j hj => beq_eq_false_iff_ne.mpr (hmin j hj)
  rw [beq_iff_eq, State.producer, hr]
  exact hp

theorem exec_orphaning (p : Port) (s : State) :
    exec (.orphaning p) s = .next (if (s.port p).state = .leaving ∧ s.hasRoom = true then
      match (s.producedSlots p).head? with
      | none => s
      | some k =>
        match s.record k with
        | none => s
        | some r => (s.orphanSlot k r).settleLeaving p
    else s) := by
  have unfolded : exec (.orphaning p) s = execOrphaning p s := rfl
  rw [unfolded, execOrphaning]
  cases s.producedSlots p <;> rfl

/-- Settles O26: the slot loses its producer, then the admission of its job. -/
theorem orphaningTakesTheLowestSlot : Obligations.OrphaningTakesTheLowestSlot := by
  refine ⟨fun p k r s hl hroom hr hp hmin => ?_, fun p s hno => ?_⟩
  · have taken : exec (.orphaning p) s =
        .next ((s.orphanTaken p k r).admitJob (.orphan (s.subject k r) r.lastSequence s.etc (s.requestersOn k))) := by
      rw [exec_orphaning, if_pos ⟨hl, State.hasRoom_iff.mpr hroom⟩, State.producedSlots_head hr hp hmin]
      simp only [hr, State.settleLeaving_orphanSlot]
    refine ⟨_, taken, ?_⟩
    obtain ⟨jobs, port, path, fetch, others, shared⟩ := (State.SameAround.orphanTaken s p k r).admitJob
      (.orphan (s.subject k r) r.lastSequence s.etc (s.requestersOn k))
    rw [State.port_orphanTaken hl] at port
    refine ⟨?_, fun i => ?_, jobs, port, path, fetch, others, shared, ?_, ?_, ?_⟩
    · simpa only [State.record_admitJob, State.slot_admitJob] using State.record_orphanTaken s p k r
    · rw [State.entry_admitJob]
      exact EntriesRemoved.orphanTaken i
    · simp [State.orphanTaken]
    · simp [State.orphanTaken]
    · simp [State.orphanTaken]
  · rw [exec_orphaning]
    split
    next hc =>
      obtain ⟨hleaving, hroom⟩ := hc
      rw [State.hasRoom_iff] at hroom
      have none : s.producedSlots p = [] := by
        obtain h | h | h := hno
        · exact absurd hleaving h
        · omega
        · exact State.producedSlots_eq_nil.mpr (not_exists.mpr h)
      rw [none]
      rfl
    · rfl

end Sys2Proof.Machine
end

section
/-! PROOF. Updates opened, selected and abandoned; the refusals of a commit; the commands of the limit watch (R29 to R37,
R43, R122 to R124). -/

namespace Sys2Proof.Machine

variable {p q : Port} {s t u : State} {k : SlotNo} {r : Record}

/-! ### OPEN_UPDATE, SELECT_STAGE and ABANDON (R29 to R31, R35, R36) -/

theorem Record.next_of_openUpdate {x : Update} (h : r.openUpdate = some x) : r.next = .staging r.next.cell (some x) := by
  unfold Record.openUpdate at h
  unfold NextCell.cell
  split at h
  next c y hn => rw [hn, h]
  · cases h

theorem Record.closed_of_openUpdate (h : r.openUpdate ≠ none) : r.closed = { r with next := .staging r.next.cell none } := by
  obtain ⟨x, hx⟩ := Option.ne_none_iff_exists'.mp h
  rw [Record.closed, Record.next_of_openUpdate hx]
  rfl

/-- The block of OPEN_UPDATE past the producer check, with the update closed and room in the open list. -/
theorem State.openUpdateBody_of_few (hn : s.Names p k r) (hp : r.producer = some p) (ho : r.openUpdate = none)
    (hfew : (s.port p).openList.length < 8) :
    (r.next = .owed r.next.cell → (s.handCommand p).openUpdateBody p = .refuse .cellPending) ∧
      (r.next = .staging r.next.cell none →
        (s.handCommand p).openUpdateBody p =
          .take (((s.handCommand p).setRecord k
              (some { r with next := .staging r.next.cell (some { length := 0, overrun := false }) })).updatePort p fun u =>
            { u with openList := u.openList ++ [k], stagingPointer := some k }) []) := by
  have few : ¬ Config.openCapacity ≤ (s.port p).openList.length := by
    rw [Config.openCapacity]
    omega
  refine ⟨fun hnext => ?_, fun hnext => ?_⟩
  · simp only [State.openUpdateBody, hn.handCommand.checkProducer hp, State.openList_handCommand, ho, Option.isSome_none,
      Bool.false_eq_true, few, if_false]
    rw [hnext]
  · simp only [State.openUpdateBody, hn.handCommand.checkProducer hp, State.openList_handCommand, ho, Option.isSome_none,
      Bool.false_eq_true, few, if_false, Record.withUpdate]
    rw [hnext]
    simp only [NextCell.cell]

theorem State.openUpdateBody_of_refused (hn : s.Names p k r) (hp : r.producer = some p) :
    (r.openUpdate ≠ none → (s.handCommand p).openUpdateBody p = .refuse .alreadyOpen) ∧
      (r.openUpdate = none → 8 ≤ (s.port p).openList.length →
        (s.handCommand p).openUpdateBody p = .refuse .tooManyOpen) := by
  refine ⟨fun ho => ?_, fun ho hmany => ?_⟩
  · simp only [State.openUpdateBody, hn.handCommand.checkProducer hp, Option.isSome_iff_ne_none.mpr ho, if_true]
  · simp only [State.openUpdateBody, hn.handCommand.checkProducer hp, State.openList_handCommand, ho, Option.isSome_none,
      Bool.false_eq_true, if_false, Config.openCapacity, hmany, if_true]

theorem State.selectStageBody_of_closed (hn : s.Names p k r) (hp : r.producer = some p) (ho : r.openUpdate = none) :
    (s.handCommand p).selectStageBody p = .refuse .notOpen := by
  simp only [State.selectStageBody, hn.handCommand.checkProducer hp, ho]

theorem State.selectStageBody_of_open {x : Update} (hn : s.Names p k r) (hp : r.producer = some p)
    (hx : r.openUpdate = some x) :
    (s.handCommand p).selectStageBody p =
      .take ((s.handCommand p).updatePort p fun u => { u with stagingPointer := some k })
        [BitVec.ofNat 8 x.length, flagByte x.overrun] := by
  simp only [State.selectStageBody, hn.handCommand.checkProducer hp, hx]

theorem State.abandonBody_of_named (hn : s.Names p k r) (hp : r.producer = some p) :
    (s.handCommand p).abandonBody p =
      if r.openUpdate.isSome then .take ((s.handCommand p).closeUpdate p k) [] else .refuse .notOpen := by
  simp only [State.abandonBody, hn.handCommand.checkProducer hp]

theorem State.closeUpdate_of_open (hr : s.record k = some r) (ho : r.openUpdate ≠ none) :
    s.closeUpdate p k =
      (s.setRecord k (some { r with next := .staging r.next.cell none })).updatePort p fun u => u.dropOpen k := by
  rw [State.closeUpdate, State.closeOnSlot, hr, ← Record.closed_of_openUpdate ho]

/-- Settles O27: past the producer check, the update of the named record decides. -/
theorem updatesOpenSelectAndAbandon : Obligations.UpdatesOpenSelectAndAbandon := by
  refine ⟨fun p v k r s h hn hp => ?_, fun p v k r s hn hp => ⟨fun h => ?_, fun h => ?_⟩⟩
  · obtain ⟨already, many⟩ := State.openUpdateBody_of_refused hn hp
    refine ⟨fun ho => h.refuses rfl v (already ho), fun ho hmany => h.refuses rfl v (many ho hmany), fun ho hfew => ?_⟩
    obtain ⟨pending, opened⟩ := State.openUpdateBody_of_few hn hp ho hfew
    exact ⟨fun hnext => h.refuses rfl v (pending hnext), fun hnext => h.takes rfl v (opened hnext)⟩
  · exact ⟨fun ho => h.refuses rfl v (State.selectStageBody_of_closed hn hp ho),
      fun x hx => h.takes rfl v (State.selectStageBody_of_open hn hp hx)⟩
  · have body := State.abandonBody_of_named hn hp
    obtain ⟨_, hr, _⟩ := hn
    refine ⟨fun ho => h.refuses rfl v ?_, fun ho => ?_⟩
    · rw [Command.body, body, ho, if_neg (by simp)]
    · rw [if_pos (Option.isSome_iff_ne_none.mpr ho),
        State.closeUpdate_of_open ((State.record_handCommand s p k).trans hr) ho] at body
      exact h.takes rfl v body

/-! ### The refusals of a commit (R37, R43) -/

theorem State.anyOverrun_iff {ks : List SlotNo} :
    s.anyOverrun ks = true ↔ ∃ k ∈ ks, ∃ r ∈ s.record k, ∃ x ∈ r.openUpdate, x.overrun = true := by
  rw [State.anyOverrun, List.any_eq_true]
  refine exists_congr fun k => and_congr_right fun _ => ?_
  cases s.record k with
  | none => simp
  | some r =>
    simp only [Option.mem_def, Option.some.injEq, exists_eq_left']
    cases r.openUpdate with
    | none => simp
    | some x => simp

theorem State.anyOverrun_handCommand (ks : List SlotNo) : (s.handCommand p).anyOverrun ks = s.anyOverrun ks := by
  simp only [State.anyOverrun, State.record_handCommand]

theorem State.commitBody_of_refused {x : Update} (hn : s.Names p k r) (hp : r.producer = some p)
    (hx : r.openUpdate = some x) :
    (x.overrun = true → (s.handCommand p).commitBody p = .refuse .overrun) ∧
      (x.overrun = false → 16 ≤ s.jobs.length → (s.handCommand p).commitBody p = .refuse .retry) := by
  refine ⟨fun ho => ?_, fun ho hfull => ?_⟩
  · simp only [State.commitBody, hn.handCommand.checkProducer hp, hx, ho, if_true]
  · simp only [State.commitBody, hn.handCommand.checkProducer hp, hx, ho, Bool.false_eq_true, if_false,
      State.hasRoom_handCommand, State.hasRoom_eq_false_iff.mpr hfull]

/-- Settles O28: the producer's update, the updates of its open list, and the job queue decide, in that order. -/
theorem commitsAreRefusedInOrder : Obligations.CommitsAreRefusedInOrder := by
  refine ⟨fun p v k r s h hn hp => ⟨fun ho => h.refuses rfl v ?_, fun x hx => ?_⟩, ?_⟩
  · simp only [Command.body, State.commitBody, hn.handCommand.checkProducer hp, ho]
  · obtain ⟨flagged, full⟩ := State.commitBody_of_refused hn hp hx
    exact ⟨fun ho => h.refuses rfl v (flagged ho), fun ho hfull => h.refuses rfl v (full ho hfull)⟩
  · intro p v s h overrun
    have flagged : (s.handCommand p).anyOverrun (s.port p).openList = true ↔ overrun := by
      rw [State.anyOverrun_handCommand]
      exact State.anyOverrun_iff
    refine ⟨fun hempty => h.refuses rfl v ?_, fun hne ho => h.refuses rfl v ?_, fun hne ho hfull => h.refuses rfl v ?_⟩
    · simp only [Command.body, State.commitGroupBody, State.openList_handCommand, hempty, if_true]
    · simp only [Command.body, State.commitGroupBody, State.openList_handCommand, hne, if_false, flagged.mpr ho, if_true]
    · simp only [Command.body, State.commitGroupBody, State.openList_handCommand, hne, if_false, mt flagged.mp ho,
        State.hasRoom_handCommand, State.hasRoom_eq_false_iff.mpr hfull, Bool.false_eq_true]

/-! ### SET_WATCH and CLEAR_WATCH (R122 to R124) -/

/-- The result data about the watch that stood before (R123). -/
theorem watchData_eq (w : Option Watch) :
    watchData w =
      match w with
      | none => [0, 0]
      | some w => [1, match w.state with | .low => 1 | .high => 2 | .inside => 3] := by
  cases w with
  | none => rfl
  | some w =>
    rw [watchData]
    cases h : w.state <;> simp [Side.code, h]

theorem State.clearWatchBody_of_named (hn : s.Names p k r) (hp : r.producer = some p) :
    (s.handCommand p).clearWatchBody p =
      .take ((s.handCommand p).setRecord k (some { r with watch := none })) (watchData r.watch) := by
  simp only [State.clearWatchBody, hn.handCommand.checkProducer hp, State.putWatch]

theorem widthArg_of_eq_8 {b : Byte} (h : b = 8) : widthArg b = some .bits8 := if_pos h

theorem widthArg_of_eq_16 {b : Byte} (h : b = 16) : widthArg b = some .bits16 := by
  subst h
  rfl

theorem widthArg_of_ne {b : Byte} (h8 : b ≠ 8) (h16 : b ≠ 16) : widthArg b = none := by
  rw [widthArg, if_neg h8, if_neg h16]

/-- The least and the greatest limit of a field (R122). -/
def leastLimit (bytes : Nat) (signed : Bool) : Int := if signed then (if bytes = 1 then -128 else -32768) else 0

def mostLimit (bytes : Nat) (signed : Bool) : Int :=
  if signed then (if bytes = 1 then 127 else 32767) else (if bytes = 1 then 255 else 65535)

theorem limitInRange_iff {w : WatchWidth} {signed : Bool} {x : Int} :
    limitInRange w signed x = true ↔ leastLimit w.bytes signed ≤ x ∧ x ≤ mostLimit w.bytes signed := by
  cases w <;> cases signed <;> exact decide_eq_true_iff

/-- A field and limits that fit in each other and in a version, with a confirm count in its range (R122). -/
def PortUnit.WatchFits (u : PortUnit) (bytes : Nat) (signed : Bool) : Prop :=
  (u.arg8 2).toNat + bytes ≤ 32 ∧ 1 ≤ (u.arg8 9).toNat ∧ (u.arg8 9).toNat ≤ 7 ∧
    leastLimit bytes signed ≤ limitArg signed (u.arg16 5 6) ∧ limitArg signed (u.arg16 5 6) ≤ mostLimit bytes signed ∧
    leastLimit bytes signed ≤ limitArg signed (u.arg16 7 8) ∧ limitArg signed (u.arg16 7 8) ≤ mostLimit bytes signed ∧
    limitArg signed (u.arg16 5 6) < limitArg signed (u.arg16 7 8)

/-- The arguments of SET_WATCH that every check but the slot's accepts (R122). -/
def PortUnit.WatchArgsValid (u : PortUnit) : Prop :=
  (u.arg8 3 = 8 ∨ u.arg8 3 = 16) ∧ (u.arg8 4).toNat ≤ 1 ∧ u.WatchFits ((u.arg8 3).toNat / 8) (u.arg8 4 == 1)

/-- The watch that the arguments of SET_WATCH name (R123). -/
def PortUnit.watchGiven (u : PortUnit) : Watch :=
  { offset := (u.arg8 2).toNat, width := if u.arg8 3 = 8 then .bits8 else .bits16, signed := u.arg8 4 == 1,
    low := limitArg (u.arg8 4 == 1) (u.arg16 5 6), high := limitArg (u.arg8 4 == 1) (u.arg16 7 8),
    confirm := (u.arg8 9).toNat, state := .inside, candidate := .inside, run := 0 }

/-- With a width and a signedness the rest of the arguments decides. -/
theorem PortUnit.watchArgs_of_width {u : PortUnit} {w : WatchWidth} (hw : widthArg (u.arg8 3) = some w)
    (hs : (u.arg8 4).toNat ≤ 1) :
    (u.WatchFits w.bytes (u.arg8 4 == 1) → u.watchArgs = some { u.watchGiven with width := w }) ∧
      (¬ u.WatchFits w.bytes (u.arg8 4 == 1) → u.watchArgs = none) := by
  have fits : u.WatchFits w.bytes (u.arg8 4 == 1) ↔
      (u.arg8 2).toNat + w.bytes ≤ Config.payloadCapacity ∧ 1 ≤ (u.arg8 9).toNat ∧ (u.arg8 9).toNat ≤ Config.maxRun ∧
        limitInRange w (u.arg8 4 == 1) (limitArg (u.arg8 4 == 1) (u.arg16 5 6)) = true ∧
        limitInRange w (u.arg8 4 == 1) (limitArg (u.arg8 4 == 1) (u.arg16 7 8)) = true ∧
        limitArg (u.arg8 4 == 1) (u.arg16 5 6) < limitArg (u.arg8 4 == 1) (u.arg16 7 8) := by
    rw [limitInRange_iff, limitInRange_iff, and_assoc, and_assoc]
    rfl
  refine ⟨fun h => ?_, fun h => ?_⟩
  · simp only [PortUnit.watchArgs, hw, boolArg_of_le hs, if_pos (fits.mp h)]
    rfl
  · simp only [PortUnit.watchArgs, hw, boolArg_of_le hs, if_neg (mt fits.mpr h)]

theorem PortUnit.watchArgs_eq (u : PortUnit) :
    (u.WatchArgsValid → u.watchArgs = some u.watchGiven) ∧ (¬ u.WatchArgsValid → u.watchArgs = none) := by
  by_cases hs : (u.arg8 4).toNat ≤ 1
  · by_cases h8 : u.arg8 3 = 8
    · obtain ⟨given, absent⟩ := PortUnit.watchArgs_of_width (widthArg_of_eq_8 h8) hs
      have valid : u.WatchArgsValid ↔ u.WatchFits 1 (u.arg8 4 == 1) := by
        simp only [PortUnit.WatchArgsValid, h8, true_or, hs, true_and]
        rfl
      rw [valid, PortUnit.watchGiven, if_pos h8]
      exact ⟨given, absent⟩
    · by_cases h16 : u.arg8 3 = 16
      · obtain ⟨given, absent⟩ := PortUnit.watchArgs_of_width (widthArg_of_eq_16 h16) hs
        have valid : u.WatchArgsValid ↔ u.WatchFits 2 (u.arg8 4 == 1) := by
          simp only [PortUnit.WatchArgsValid, h16, or_true, hs, true_and]
          rfl
        rw [valid, PortUnit.watchGiven, if_neg h8]
        exact ⟨given, absent⟩
      · refine ⟨fun h => absurd h.1 (not_or.mpr ⟨h8, h16⟩), fun _ => ?_⟩
        simp only [PortUnit.watchArgs, widthArg_of_ne h8 h16]
  · refine ⟨fun h => absurd h.2.1 hs, fun _ => ?_⟩
    simp only [PortUnit.watchArgs, boolArg_eq_none_iff.mpr (not_le.mp hs)]
    cases widthArg (u.arg8 3) <;> rfl

theorem PortUnit.watchArgs_handCommand : ((s.handCommand p).port p).watchArgs = (s.port p).watchArgs := by
  simp only [PortUnit.watchArgs, State.arg8_handCommand, State.arg16_handCommand]

/-- Past the checks of the arguments, the producer check decides. -/
theorem State.setWatchBody_of_error {e : Result} (hk : ((s.port p).arg8 0).toNat = k.val)
    (hv : (s.port p).WatchArgsValid)
    (he : s.checkProducer p ((s.port p).arg8 0) ((s.port p).arg8 1) = .error e) :
    (s.handCommand p).setWatchBody p = .refuse e := by
  simp only [State.setWatchBody, State.arg8_handCommand, slotArg_of_eq hk, PortUnit.watchArgs_handCommand,
    (s.port p).watchArgs_eq.1 hv, State.checkProducer_handCommand, he]

theorem State.setWatchBody_of_named (hn : s.Names p k r) (hp : r.producer = some p) (hv : (s.port p).WatchArgsValid) :
    (s.handCommand p).setWatchBody p =
      .take ((s.handCommand p).setRecord k (some { r with watch := some (s.port p).watchGiven })) (watchData r.watch) := by
  have hk : slotArg ((s.port p).arg8 0) = some k := slotArg_of_eq hn.1
  simp only [State.setWatchBody, State.arg8_handCommand, hk, PortUnit.watchArgs_handCommand,
    (s.port p).watchArgs_eq.1 hv, State.checkProducer_handCommand, hn.checkProducer hp, State.putWatch]

theorem State.setWatchBody_of_invalid (h : ¬ (((s.port p).arg8 0).toNat < 64 ∧ (s.port p).WatchArgsValid)) :
    (s.handCommand p).setWatchBody p = .refuse .badArg := by
  simp only [State.setWatchBody, State.arg8_handCommand, PortUnit.watchArgs_handCommand]
  by_cases hk : ((s.port p).arg8 0).toNat < 64
  · rw [(s.port p).watchArgs_eq.2 fun hv => h ⟨hk, hv⟩]
    cases slotArg ((s.port p).arg8 0) <;> rfl
  · rw [slotArg_of_gt (by omega)]

/-- Settles O31: the limits of the statement are those of the arguments, read in the signedness given. -/
theorem watchCommands : Obligations.WatchCommands := by
  refine ⟨?_, fun p v k r s h hn hp => ?_⟩
  · intro p v s h u bytes signed low high least most good
    have low_eq : low = limitArg (u.arg8 4 == 1) (u.arg16 5 6) := by
      simp only [limitArg, beq_iff_eq]
      rfl
    have high_eq : high = limitArg (u.arg8 4 == 1) (u.arg16 7 8) := by
      simp only [limitArg, beq_iff_eq]
      rfl
    have least_eq : least = leastLimit bytes (u.arg8 4 == 1) := by
      simp only [leastLimit, beq_iff_eq]
      rfl
    have most_eq : most = mostLimit bytes (u.arg8 4 == 1) := by
      simp only [mostLimit, beq_iff_eq]
      rfl
    have good_iff : good ↔ (u.arg8 0).toNat < 64 ∧ u.WatchArgsValid := by
      simp only [good, low_eq, high_eq, least_eq, most_eq]
      exact Iff.rfl
    refine ⟨fun hbad => h.refuses rfl v (State.setWatchBody_of_invalid (mt good_iff.mpr hbad)), fun k hk hgood => ?_⟩
    obtain ⟨_, valid⟩ := good_iff.mp hgood
    refine ⟨fun hgone => h.refuses rfl v ?_, fun r hr hi => ⟨fun hp => h.refuses rfl v ?_, fun hp => ?_⟩⟩
    · exact State.setWatchBody_of_error hk valid (State.checkProducer_of_error (State.checkSlot_of_gone hk hgone))
    · exact State.setWatchBody_of_error hk valid
        (State.checkProducer_of_other (State.checkSlot_ok.mpr ⟨hk, hr, hi⟩) hp)
    · have taken := h.takes rfl v (State.setWatchBody_of_named (k := k) ⟨hk, hr, hi⟩ hp valid)
      rw [watchData_eq] at taken
      simp only [low_eq, high_eq]
      exact taken
  · have taken := h.takes rfl v (State.clearWatchBody_of_named hn hp)
    rw [watchData_eq] at taken
    exact taken

end Sys2Proof.Machine
end

section
/-! PROOF. Commits: what the commit of one slot leaves, COMMIT, and the commit of a group (R11, R38 to R46). -/

namespace Sys2Proof.Machine

variable {p q : Port} {s t u : State} {k : SlotNo} {r : Record} {x : Update} {now : Time} {tag : Option GroupTag}

/-! ### What a commit makes (R38 to R41) -/

/-- The content record that the commit of an update completes (R39, R45). -/
def State.versionOf (s : State) (now : Time) (tag : Option GroupTag) (r : Record) (x : Update) : Content :=
  { sequence := if r.lastSequence = 0xFFFFFFFF then 1 else r.lastSequence + 1, commitTime := now, length := x.length,
    payload := (s.cell r.next.cell).content.payload, tag := tag }

/-- What the PUBLISH job captures of a commit (R41). -/
def State.publishedOf (s : State) (p : Port) (now : Time) (tag : Option GroupTag) (k : SlotNo) (r : Record) (x : Update) :
    Published :=
  { subject := { key := r.key, slot := k, incarnation := (s.slot k).incarnation }, producer := p,
    sequence := (s.versionOf now tag r x).sequence, commitTime := now, byte0 := (s.versionOf now tag r x).byteAt 0,
    byte1 := (s.versionOf now tag r x).byteAt 1,
    recovered := (match r.life with | .produced .stale _ _ => true | _ => false),
    limit := (evaluateWatch r.watch (s.versionOf now tag r x)).2, answered := s.requestersOn k }

/-- A record after a commit: its cells are rotated, and of the other fields these have changed (R11, R38 to R40). -/
def Record.CommittedTo (r r' : Record) (p : Port) (now : Time) (y : Content) (pins : CellNo → Nat) : Prop :=
  { r' with versions := r.versions, next := r.next, spares := r.spares } =
      { r with
        lastSequence := y.sequence, life := .produced .live p (if r.period = 0 then none else some (now + r.period)),
        watch := (evaluateWatch r.watch y).1 } ∧
    CellsRotated r r' r.next.cell pins

/-- Between the two states slot `k` was committed. -/
structure State.CommittedAt (s t : State) (p : Port) (now : Time) (tag : Option GroupTag) (k : SlotNo) (r : Record)
    (x : Update) : Prop where
  record : ∃ r', t.record k = some r' ∧ r.CommittedTo r' p now (s.versionOf now tag r x) fun d => (s.cell d).pins
  incarnation : (t.slot k).incarnation = (s.slot k).incarnation
  cell : t.cell r.next.cell = { content := s.versionOf now tag r x, pins := (s.cell r.next.cell).pins }

/-- A slot whose update is open on its staging cell, with its cells in number (R10). -/
structure State.Commits (s : State) (k : SlotNo) (r : Record) (x : Update) : Prop where
  record : s.record k = some r
  next : r.next = .staging r.next.cell (some x)
  count : r.versions.length + r.spares.length = r.depth
  depth : 1 ≤ r.depth

/-- The rotation of R11, as the statements tell it. -/
theorem CellsRotated.rotated {c : CellNo} {r' : Record} (hcount : r.versions.length + r.spares.length = r.depth)
    (hdepth : 1 ≤ r.depth) (hv : r'.versions = (r.rotated s c).versions) (hn : r'.next = (r.rotated s c).next)
    (hs : r'.spares = (r.rotated s c).spares) : CellsRotated r r' c fun d => (s.cell d).pins := by
  unfold CellsRotated
  rw [hv, hn, hs]
  obtain ⟨y, rest, hlt, hspares, h⟩ | ⟨hfull, h⟩ := r.rotated_cases s c
  · rw [h, if_pos hlt]
    exact ⟨rfl, y, rfl, by rw [hspares]⟩
  · have full : ¬ r.versions.length < r.depth := by
      obtain hle | hnil := hfull
      · omega
      · rw [hnil, List.length_nil] at hcount
        omega
    have nonempty : r.versions ≠ [] := by
      intro hnil
      rw [hnil, List.length_nil] at full
      omega
    rw [h, if_neg full]
    refine ⟨List.tail_append_of_ne_nil nonempty, rfl, fun o ho => ?_⟩
    have oldest : r.versions.headD c = o := by
      rw [List.headD_eq_head?_getD, ho]
      rfl
    rw [oldest]
    exact ⟨fun h => if_pos h, fun h => if_neg (Nat.pos_iff_ne_zero.mp h)⟩

theorem Life.isStale_eq (l : Life) : l.isStale = (match l with | .produced .stale _ _ => true | _ => false) := by
  cases l with
  | produced stage _ _ => cases stage <;> rfl
  | orphaned _ => rfl

/-- The record that the commit of an update leaves. -/
def State.recordOf (s : State) (p : Port) (now : Time) (tag : Option GroupTag) (r : Record) (x : Update) : Record :=
  { r.rotated s r.next.cell with
    lastSequence := (s.versionOf now tag r x).sequence, life := .produced .live p (deadlineOf r.period (now + r.period)),
    watch := (evaluateWatch r.watch (s.versionOf now tag r x)).1 }

theorem Record.CommittedTo.recordOf (hcount : r.versions.length + r.spares.length = r.depth) (hdepth : 1 ≤ r.depth) :
    r.CommittedTo (s.recordOf p now tag r x) p now (s.versionOf now tag r x) fun d => (s.cell d).pins := by
  refine ⟨?_, .rotated hcount hdepth rfl rfl rfl⟩
  rw [State.recordOf]
  obtain ⟨y, rest, -, -, e⟩ | ⟨-, e⟩ := r.rotated_cases s r.next.cell
  · rw [e]
    rfl
  · rw [e]
    rfl

/-- The state that the commit of one slot leaves. -/
def State.commitOf (s : State) (p : Port) (now : Time) (tag : Option GroupTag) (k : SlotNo) (r : Record) (x : Update) : State :=
  (State.updatePort
    ((s.setCell r.next.cell { s.cell r.next.cell with content := s.versionOf now tag r x }).setRecord k
      (some (s.recordOf p now tag r x))) p fun u => u.dropOpen k).endEntriesOn k

/-- The commit of one slot, in the words of the statements. -/
theorem State.Commits.commitSlot (h : s.Commits k r x) (p : Port) (now : Time) (tag : Option GroupTag) :
    s.commitSlot p now tag k = some (s.commitOf p now tag k r x, s.publishedOf p now tag k r x) :=
  State.commitSlot_some.mpr ⟨r, r.next.cell, x, h.record, h.next, rfl, by rw [Life.isStale_eq]; rfl⟩

theorem State.Commits.committedAt (h : s.Commits k r x) : s.CommittedAt (s.commitOf p now tag k r x) p now tag k r x where
  record := ⟨_, by simp [State.commitOf], .recordOf h.count h.depth⟩
  incarnation := by simp [State.commitOf]
  cell := by simp [State.commitOf]

theorem State.cell_commitOf (d : CellNo) :
    (s.commitOf p now tag k r x).cell d =
      if d = r.next.cell then { content := s.versionOf now tag r x, pins := (s.cell r.next.cell).pins } else s.cell d := by
  rw [State.commitOf, State.cell_endEntriesOn, State.cell_updatePort, State.cell_setRecord, State.cell_setCell_eq]

theorem State.slot_commitOf {j : SlotNo} (hj : j ≠ k) : (s.commitOf p now tag k r x).slot j = s.slot j := by
  simp [State.commitOf, hj]

theorem EntriesRemoved.commitOf :
    EntriesRemoved (fun e => e.slot == k && e.incarnation == (s.slot k).incarnation) s (s.commitOf p now tag k r x) := by
  intro i
  simp [State.commitOf, Entry.waitsOn]

theorem State.port_commitOf (q : Port) :
    (s.commitOf p now tag k r x).port q = if q = p then (s.port q).dropOpen k else s.port q := by
  simp [State.commitOf, State.port_updatePort_eq]

theorem State.SameAround.commitOf (s : State) (p : Port) (now : Time) (tag : Option GroupTag) (k : SlotNo) (r : Record)
    (x : Update) : s.SameAround p (s.commitOf p now tag k r x) where
  shared := by simp [SharedKept, State.commitOf]
  others q hq := by rw [State.port_commitOf, if_neg hq]
  fetch := by rw [State.port_commitOf, if_pos rfl]; rfl
  jobs := by simp [State.commitOf]
  path := by simp [State.commitOf]
  last := by simp [State.commitOf]

/-! ### COMMIT (R37 to R41) -/

theorem State.commitBody_of_taken (hn : s.Names p k r) (hp : r.producer = some p) (hx : r.openUpdate = some x)
    (ho : x.overrun = false) (hr : s.jobs.length < 16) (hc : (s.handCommand p).Commits k r x) :
    (s.handCommand p).commitBody p =
      .take (((s.handCommand p).commitOf p s.etc none k r x).admitJob
          (.publish [(s.handCommand p).publishedOf p s.etc none k r x]))
        (bytes32 ((s.handCommand p).versionOf s.etc none r x).sequence ++ bytes32 s.etc) := by
  simp only [State.commitBody, hn.handCommand.checkProducer hp, hx, ho, Bool.false_eq_true, if_false,
    State.hasRoom_handCommand, State.hasRoom_iff.mpr hr, if_true, State.etc_handCommand, hc.commitSlot]
  rfl

theorem State.versionOf_handCommand : (s.handCommand p).versionOf now tag r x = s.versionOf now tag r x := by
  simp only [State.versionOf, State.cell_handCommand]

theorem State.publishedOf_handCommand :
    (s.handCommand p).publishedOf q now tag k r x = s.publishedOf q now tag k r x := by
  simp only [State.publishedOf, State.versionOf_handCommand, State.slot_handCommand, State.requestersOn_handCommand]

theorem State.CommittedAt.of_handCommand (h : (s.handCommand p).CommittedAt t q now tag k r x) :
    s.CommittedAt t q now tag k r x := by
  obtain ⟨record, incarnation, cell⟩ := h
  simp only [State.versionOf_handCommand, State.cell_handCommand, State.slot_handCommand] at record incarnation cell
  exact ⟨record, incarnation, cell⟩

theorem State.Commits.handCommand (h : s.Commits k r x) : (s.handCommand p).Commits k r x :=
  ⟨(State.record_handCommand s p k).trans h.record, h.next, h.count, h.depth⟩

/-- What COMMIT leaves of a state, before its job joins the queue. -/
def State.commitTaken (s : State) (p : Port) (k : SlotNo) (r : Record) (x : Update) : State :=
  ((s.handCommand p).commitOf p s.etc none k r x).setResult p .ok
    (bytes32 (s.versionOf s.etc none r x).sequence ++ bytes32 s.etc)

theorem State.SlotCommand.commit_taken (h : s.SlotCommand p .commit) (hn : s.Names p k r) (hp : r.producer = some p)
    (ho : x.overrun = false) (hr : s.jobs.length < 16) (hc : s.Commits k r x) (v : Byte) :
    exec (.commit p v) s =
      .next ((s.commitTaken p k r x).admitJob (.publish [s.publishedOf p s.etc none k r x])) := by
  have hx : r.openUpdate = some x := by
    rw [Record.openUpdate, hc.next]
  have body := State.commitBody_of_taken hn hp hx ho hr hc.handCommand
  rw [State.versionOf_handCommand, State.publishedOf_handCommand] at body
  rw [← Command.instr.eq_17, h.takes rfl v body, State.setResult_admitJob]
  rfl

theorem State.SameAround.commitTaken (s : State) (p : Port) (k : SlotNo) (r : Record) (x : Update) :
    s.SameAround p (s.commitTaken p k r x) :=
  ((State.SameAround.handCommand s p).trans (.commitOf _ p _ _ k r x)).trans (.setResult _ p _ _)

theorem State.port_commitTaken :
    (s.commitTaken p k r x).port p =
      { (s.handCommand p).port p with
        openList := (s.port p).openList.filter (fun j => j != k),
        stagingPointer := if (s.port p).stagingPointer = some k then none else (s.port p).stagingPointer,
        result := .ok, rdata := rdataOf (bytes32 (s.versionOf s.etc none r x).sequence ++ bytes32 s.etc) } := by
  rw [State.commitTaken, State.port_setResult, if_pos rfl, State.port_commitOf, if_pos rfl, PortUnit.dropOpen,
    State.openList_handCommand, State.stagingPointer_handCommand]

theorem Content.byteAt_eq (y : Content) (i : Nat) : y.byteAt i = if i < y.length then y.payload.toList.getD i 0 else 0 := rfl

/-- Settles O29: the commit of the slot, then the admission of its job. -/
theorem commitMakesAVersion : Obligations.CommitMakesAVersion := by
  refine ⟨?_, Content.byteAt_eq⟩
  intro p v k r c x s h hn hp hcount hdepth hnext ho hroom inc sequence content watched
  obtain rfl : r.next.cell = c := by
    rw [hnext]
    rfl
  obtain ⟨_, hr, _⟩ := id hn
  have commits : s.Commits k r x := ⟨hr, hnext, hcount, hdepth⟩
  refine ⟨_, h.commit_taken hn hp ho hroom commits v, ?_⟩
  have around := (State.SameAround.commitTaken s p k r x).admitJob (.publish [s.publishedOf p s.etc none k r x])
  rw [State.port_commitTaken] at around
  obtain ⟨record, incarnation, -⟩ := (commits.handCommand.committedAt (p := p) (now := s.etc) (tag := none)).of_handCommand
  refine ⟨fun d => ?_, ?_, ?_, fun j hj => ?_, ?_, ?_, fun i => ?_, around⟩
  · rw [State.cell_admitJob, State.commitTaken, State.cell_setResult, State.cell_commitOf, State.versionOf_handCommand,
      State.cell_handCommand, State.cell_handCommand]
    rfl
  · rw [State.record_admitJob, State.commitTaken, State.record_setResult]
    exact record
  · rw [State.slot_admitJob, State.commitTaken, State.slot_setResult]
    exact incarnation
  · rw [State.slot_admitJob, State.commitTaken, State.slot_setResult, State.slot_commitOf hj, State.slot_handCommand]
  · simp [State.commitTaken, State.commitOf]
  · simp [State.commitTaken, State.commitOf]
  · have removed := EntriesRemoved.commitOf (s := s.handCommand p) (p := p) (now := s.etc) (tag := none) (k := k) (r := r)
      (x := x) i
    rw [State.entry_handCommand, State.slot_handCommand] at removed
    rw [State.entry_admitJob, State.commitTaken, State.entry_setResult, removed]

end Sys2Proof.Machine
end

section
/-! PROOF. COMMIT_GROUP: the members of the open list committed one after another (R43 to R46). -/

namespace Sys2Proof.Machine

variable {p q : Port} {s t u : State} {k : SlotNo} {r : Record} {x : Update} {now : Time} {tag : Option GroupTag}
  {ks : List SlotNo}

/-! ### What the commit of another slot leaves -/

/-- The requesters that wait on a slot, where the entries of another slot were removed. -/
theorem EntriesRemoved.requestersOn {f : Entry → Bool} (h : EntriesRemoved f s t)
    (hf : ∀ e, e.waitsOn k (s.slot k).incarnation = true → f e = false)
    (hi : (t.slot k).incarnation = (s.slot k).incarnation) : t.requestersOn k = s.requestersOn k := by
  rw [State.requestersOn_eq, State.requestersOn_eq, hi]
  refine List.filterMap_congr fun i _ => ?_
  have hti : t.requests[i] = (s.requests[i]).filter fun e => !f e := h i
  rw [hti]
  cases s.requests[i] with
  | none => rfl
  | some e =>
    by_cases hw : e.slot = k ∧ e.incarnation = (s.slot k).incarnation
    · simp [Option.filter, hf e (Entry.waitsOn_iff.mpr hw)]
    · by_cases hfe : f e = true
      · simp [Option.filter, hfe, hw]
      · simp [Option.filter, hfe]

/-- Two states agree on slot `k` as far as a commit of it goes: its slot, its staging cell, the pin counts and the
requesters that wait on it. -/
structure State.SameMember (s t : State) (k : SlotNo) (r : Record) : Prop where
  slot : t.slot k = s.slot k
  cell : t.cell r.next.cell = s.cell r.next.cell
  pins : ∀ d, (t.cell d).pins = (s.cell d).pins
  requesters : t.requestersOn k = s.requestersOn k

theorem State.SameMember.commits (h : s.SameMember t k r) (hc : s.Commits k r x) : t.Commits k r x := by
  refine ⟨?_, hc.next, hc.count, hc.depth⟩
  have := hc.record
  unfold State.record at this ⊢
  rw [h.slot, this]

theorem State.SameMember.versionOf (h : s.SameMember t k r) : t.versionOf now tag r x = s.versionOf now tag r x := by
  simp only [State.versionOf, h.cell]

theorem State.SameMember.publishedOf (h : s.SameMember t k r) :
    t.publishedOf p now tag k r x = s.publishedOf p now tag k r x := by
  simp only [State.publishedOf, h.versionOf, h.slot, h.requesters]

theorem State.CommittedAt.of_same (h : t.CommittedAt u p now tag k r x) (hs : s.SameMember t k r) :
    s.CommittedAt u p now tag k r x := by
  obtain ⟨record, incarnation, cell⟩ := h
  simp only [hs.versionOf, hs.slot, hs.pins] at record incarnation cell
  exact ⟨record, incarnation, cell⟩

/-- What was committed stays so while other slots and other cells change. -/
theorem State.CommittedAt.keep (h : s.CommittedAt t p now tag k r x) (hslot : u.slot k = t.slot k)
    (hcell : u.cell r.next.cell = t.cell r.next.cell) : s.CommittedAt u p now tag k r x := by
  obtain ⟨record, incarnation, cell⟩ := h
  refine ⟨?_, by rw [hslot, incarnation], by rw [hcell, cell]⟩
  unfold State.record at record ⊢
  rwa [hslot]

/-- The commit of a slot leaves another slot's record, staging cell and waiting entries. -/
theorem State.SameMember.commitOf {j : SlotNo} {y : Record} (hj : j ≠ k) (hc : y.next.cell ≠ r.next.cell) :
    s.SameMember (s.commitOf p now tag k r x) j y where
  slot := State.slot_commitOf hj
  cell := by rw [State.cell_commitOf, if_neg hc]
  pins d := by
    rw [State.cell_commitOf]
    split
    next h => rw [h]
    · rfl
  requesters := by
    refine EntriesRemoved.commitOf.requestersOn (fun e he => ?_) (by rw [State.slot_commitOf hj])
    obtain ⟨hslot, -⟩ := Entry.waitsOn_iff.mp he
    simp [hslot, hj]

/-! ### The members one after another (R44) -/

/-- Slots whose updates can be committed together: each is ready, on a staging cell of its own. -/
structure State.Committable (s : State) (ks : List SlotNo) : Prop where
  nodup : ks.Nodup
  ready : ∀ k ∈ ks, ∃ r x, s.Commits k r x
  apart : ∀ k ∈ ks, ∀ j ∈ ks, ∀ r x, s.record k = some r → s.record j = some x → r.next.cell = x.next.cell → k = j

/-- What the group's PUBLISH job captures (R46). -/
def State.membersOf (s : State) (p : Port) (now : Time) (tag : Option GroupTag) (ks : List SlotNo) : List Published :=
  ks.filterMap fun k => (s.record k).bind fun r => r.openUpdate.map fun x => s.publishedOf p now tag k r x

/-- What the commit of a list of slots leaves, but for the unit of the port. -/
structure State.GroupCommitted (s t : State) (p : Port) (now : Time) (tag : Option GroupTag) (ks : List SlotNo) : Prop where
  member : ∀ k ∈ ks, ∀ r x, s.Commits k r x → s.CommittedAt t p now tag k r x
  cells : ∀ d, (∀ k ∈ ks, ∀ r, s.record k = some r → r.next.cell ≠ d) → t.cell d = s.cell d
  slots : ∀ k, k ∉ ks → t.slot k = s.slot k
  entries : EntriesRemoved (fun e => ks.contains e.slot && e.incarnation == (s.slot e.slot).incarnation) s t

theorem State.Commits.openUpdate (h : s.Commits k r x) : r.openUpdate = some x := by
  rw [Record.openUpdate, h.next]

/-- A ready member's record and update are its own. -/
theorem State.Commits.unique {y : Record} {z : Update} (h : s.Commits k r x) (h' : s.Commits k y z) : y = r ∧ z = x := by
  obtain rfl : y = r := Option.some.inj (h'.record.symm.trans h.record)
  exact ⟨rfl, Option.some.inj (h'.openUpdate.symm.trans h.openUpdate)⟩

theorem State.Committable.sameMember (h : s.Committable (k :: ks)) (hc : s.Commits k r x) {j : SlotNo} {y : Record}
    (hj : j ∈ ks) (hy : s.record j = some y) : s.SameMember (s.commitOf p now tag k r x) j y := by
  have hne : j ≠ k := by
    rintro rfl
    exact (List.nodup_cons.mp h.nodup).1 hj
  refine .commitOf hne fun hcell => hne ?_
  exact h.apart j (List.mem_cons_of_mem _ hj) k (List.mem_cons_self ..) y r hy hc.record hcell

/-- After the first member the others can still be committed. -/
theorem State.Committable.tail (h : s.Committable (k :: ks)) (hc : s.Commits k r x) :
    (s.commitOf p now tag k r x).Committable ks := by
  have record : ∀ j ∈ ks, (s.commitOf p now tag k r x).record j = s.record j := fun j hj => by
    have hne : j ≠ k := by
      rintro rfl
      exact (List.nodup_cons.mp h.nodup).1 hj
    unfold State.record
    rw [State.slot_commitOf hne]
  refine ⟨(List.nodup_cons.mp h.nodup).2, fun j hj => ?_, fun i hi j hj a b ha hb => ?_⟩
  · obtain ⟨y, z, hyz⟩ := h.ready j (List.mem_cons_of_mem _ hj)
    exact ⟨y, z, (h.sameMember hc hj hyz.record).commits hyz⟩
  · rw [record i hi] at ha
    rw [record j hj] at hb
    exact h.apart i (List.mem_cons_of_mem _ hi) j (List.mem_cons_of_mem _ hj) a b ha hb

theorem State.Committable.membersOf (h : s.Committable (k :: ks)) (hc : s.Commits k r x) :
    s.membersOf p now tag (k :: ks) =
      s.publishedOf p now tag k r x :: (s.commitOf p now tag k r x).membersOf p now tag ks := by
  have tail : (s.commitOf p now tag k r x).membersOf p now tag ks = s.membersOf p now tag ks := by
    refine List.filterMap_congr fun j hj => ?_
    obtain ⟨y, z, hyz⟩ := h.ready j (List.mem_cons_of_mem _ hj)
    have same := h.sameMember (p := p) (now := now) (tag := tag) hc hj hyz.record
    simp only [(same.commits hyz).record, hyz.record, Option.bind_some, hyz.openUpdate, Option.map_some, same.publishedOf]
  rw [tail]
  simp only [State.membersOf, List.filterMap_cons, hc.record, Option.bind_some, hc.openUpdate, Option.map_some]

theorem State.GroupCommitted.nil (s : State) : s.GroupCommitted s p now tag [] where
  member k hk := absurd hk List.not_mem_nil
  cells _ _ := rfl
  slots _ _ := rfl
  entries i := by
    simp only [List.contains_nil, Bool.false_and, Bool.not_false]
    cases s.entry i <;> rfl

theorem EntriesRemoved.trans {f g : Entry → Bool} (h : EntriesRemoved f s t) (h' : EntriesRemoved g t u) :
    EntriesRemoved (fun e => f e || g e) s u := by
  intro i
  rw [h' i, h i, Option.filter_filter]
  congr 1
  funext e
  simp

theorem EntriesRemoved.congr {f g : Entry → Bool} (h : EntriesRemoved f s t) (hfg : ∀ e, f e = g e) :
    EntriesRemoved g s t := by
  obtain rfl : f = g := funext hfg
  exact h

/-- The first member committed, then the others. -/
theorem State.GroupCommitted.cons (h : s.Committable (k :: ks)) (hc : s.Commits k r x)
    (hg : (s.commitOf p now tag k r x).GroupCommitted t p now tag ks) : s.GroupCommitted t p now tag (k :: ks) := by
  obtain ⟨notMem, -⟩ := List.nodup_cons.mp h.nodup
  have first := hc.committedAt (p := p) (now := now) (tag := tag)
  have incarnation : ∀ j, ((s.commitOf p now tag k r x).slot j).incarnation = (s.slot j).incarnation := fun j => by
    by_cases hj : j = k
    · rw [hj, first.incarnation]
    · rw [State.slot_commitOf hj]
  have record : ∀ j ∈ ks, (s.commitOf p now tag k r x).record j = s.record j := fun j hj => by
    unfold State.record
    have other : j ≠ k := by
      rintro rfl
      exact notMem hj
    rw [State.slot_commitOf other]
  refine ⟨fun j hj y z hyz => ?_, fun d hd => ?_, fun j hj => ?_, ?_⟩
  · obtain rfl | hj := List.mem_cons.mp hj
    · obtain ⟨rfl, rfl⟩ := hc.unique hyz
      refine first.keep (hg.slots j notMem) (hg.cells _ fun i hi y hy => ?_)
      rw [record i hi] at hy
      exact fun hcell => notMem (h.apart i (List.mem_cons_of_mem _ hi) j (List.mem_cons_self ..) _ _ hy hc.record hcell ▸ hi)
    · have same := h.sameMember (p := p) (now := now) (tag := tag) hc hj hyz.record
      exact (hg.member j hj y z (same.commits hyz)).of_same same
  · have other : d ≠ r.next.cell := (hd k (List.mem_cons_self ..) r hc.record).symm
    rw [hg.cells d fun j hj y hy => hd j (List.mem_cons_of_mem _ hj) y (by rwa [record j hj] at hy), State.cell_commitOf,
      if_neg other]
  · rw [List.mem_cons, not_or] at hj
    rw [hg.slots j hj.2, State.slot_commitOf hj.1]
  · refine (EntriesRemoved.commitOf.trans hg.entries).congr fun e => ?_
    rw [incarnation, List.contains_cons]
    by_cases hk : e.slot = k
    · subst hk
      simp
    · simp [beq_eq_false_iff_ne.mpr hk]

theorem State.Committable.commitMembers (h : s.Committable ks) :
    (State.commitMembers p now tag ks s).2 = s.membersOf p now tag ks ∧
      s.GroupCommitted (State.commitMembers p now tag ks s).1 p now tag ks := by
  induction ks generalizing s with
  | nil => exact ⟨rfl, .nil s⟩
  | cons k ks ih =>
    obtain ⟨r, x, hc⟩ := h.ready k (List.mem_cons_self ..)
    obtain ⟨members, committed⟩ := ih (h.tail (p := p) (now := now) (tag := tag) hc)
    rw [State.commitMembers_cons ks (hc.commitSlot p now tag), h.membersOf hc, members]
    exact ⟨rfl, .cons h hc committed⟩

/-- Of the ports, the members' commits change the open list and the pointer of the caller alone. -/
theorem State.port_commitMembers (ks : List SlotNo) (s : State) :
    (∀ q, q ≠ p → (State.commitMembers p now tag ks s).1.port q = s.port q) ∧
      ∃ l o, (State.commitMembers p now tag ks s).1.port p = { s.port p with openList := l, stagingPointer := o } := by
  induction ks generalizing s with
  | nil => exact ⟨fun _ _ => rfl, _, _, rfl⟩
  | cons k ks ih =>
    cases h : s.commitSlot p now tag k with
    | none =>
      simp only [State.commitMembers, h]
      exact ih s
    | some y =>
      obtain ⟨t, m⟩ := y
      obtain ⟨others, l, o, own⟩ := ih t
      rw [State.commitMembers_cons ks h]
      refine ⟨fun q hq => ?_, l, o, ?_⟩
      · rw [others q hq, State.commitSlot_port h, if_neg hq]
      · rw [own, State.commitSlot_port h, if_pos rfl]
        rfl

/-! ### COMMIT_GROUP (R43, R44) -/

theorem UpdateLaw.committable (hu : UpdateLaw s) (hc : CellLaw s) (p : Port) : s.Committable (s.port p).openList := by
  obtain ⟨ports, -⟩ := hu
  obtain ⟨nodup, -, -, listed, -⟩ := ports p
  refine ⟨nodup, fun k hk => ?_, fun k hk j hj r x hr hx hcell => ?_⟩
  · obtain ⟨r, hr, ho, -⟩ := listed k hk
    obtain ⟨x, hx⟩ := Option.isSome_iff_exists.mp ho
    obtain ⟨count, depth, -⟩ := hc.sized hr
    exact ⟨r, x, hr, Record.next_of_openUpdate hx, count, depth⟩
  · have mem : ∀ {i : SlotNo} {y : Record}, s.record i = some y → y.next.cell ∈ s.cellsAt i := fun hy => by
      rw [State.cellsAt_of_record hy, Record.cells]
      simp
    exact hc.slot_eq (mem hr) (by rw [hcell]; exact mem hx)

theorem State.Committable.handCommand (h : s.Committable ks) : (s.handCommand p).Committable ks := by
  refine ⟨h.nodup, fun k hk => ?_, ?_⟩
  · obtain ⟨r, x, hc⟩ := h.ready k hk
    exact ⟨r, x, hc.handCommand⟩
  · simpa only [State.record_handCommand] using h.apart

theorem State.membersOf_handCommand : (s.handCommand p).membersOf q now tag ks = s.membersOf q now tag ks := by
  simp only [State.membersOf, State.record_handCommand, State.publishedOf_handCommand]

theorem State.Committable.length_membersOf (h : s.Committable ks) : (s.membersOf p now tag ks).length = ks.length := by
  refine List.filterMap_length_eq_length.mpr fun k hk => ?_
  obtain ⟨r, x, hc⟩ := h.ready k hk
  simp [hc.record, hc.openUpdate]

theorem State.GroupCommitted.of_handCommand (h : (s.handCommand p).GroupCommitted t q now tag ks) :
    s.GroupCommitted t q now tag ks where
  member k hk r x hc := (h.member k hk r x hc.handCommand).of_handCommand
  cells d hd := by
    rw [h.cells d (by simpa only [State.record_handCommand] using hd), State.cell_handCommand]
  slots k hk := by rw [h.slots k hk, State.slot_handCommand]
  entries i := by simpa only [State.entry_handCommand, State.slot_handCommand] using h.entries i

/-- The tag of a group commit of the port (R45). -/
def State.groupTag (s : State) (p : Port) : GroupTag := { port := p, count := (s.port p).groupCounter + 1 }

/-- What COMMIT_GROUP leaves of a state, before its job joins the queue. -/
def State.groupTaken (s : State) (p : Port) : State :=
  (State.updatePort (State.commitMembers p s.etc (some (s.groupTag p)) (s.port p).openList (s.handCommand p)).1 p fun u =>
    { u with groupCounter := (s.port p).groupCounter + 1, openList := [], stagingPointer := none }).setResult p .ok
    ([BitVec.ofNat 8 (s.port p).openList.length, (s.port p).groupCounter + 1] ++ bytes32 s.etc)

theorem State.groupCounter_handCommand : ((s.handCommand p).port p).groupCounter = (s.port p).groupCounter := by
  simp

theorem State.commitGroupBody_of_taken (hc : s.Committable (s.port p).openList) (hne : (s.port p).openList ≠ [])
    (ho : s.anyOverrun (s.port p).openList = false) (hr : s.jobs.length < 16) :
    (s.handCommand p).commitGroupBody p =
      .take ((State.updatePort
          (State.commitMembers p s.etc (some (s.groupTag p)) (s.port p).openList (s.handCommand p)).1 p fun u =>
            { u with groupCounter := (s.port p).groupCounter + 1, openList := [], stagingPointer := none }).admitJob
          (.publish (s.membersOf p s.etc (some (s.groupTag p)) (s.port p).openList)))
        ([BitVec.ofNat 8 (s.port p).openList.length, (s.port p).groupCounter + 1] ++ bytes32 s.etc) := by
  obtain ⟨members, -⟩ := hc.handCommand (p := p) |>.commitMembers (p := p) (now := s.etc) (tag := some (s.groupTag p))
  rw [State.membersOf_handCommand] at members
  have length := hc.length_membersOf (p := p) (now := s.etc) (tag := some (s.groupTag p))
  unfold State.groupTag at *
  simp only [State.commitGroupBody, State.openList_handCommand, hne, if_false, State.anyOverrun_handCommand, ho,
    Bool.false_eq_true, State.hasRoom_handCommand, State.hasRoom_iff.mpr hr, if_true, State.groupCounter_handCommand,
    State.etc_handCommand, members, length]

theorem State.SameAround.commitMembers (ks : List SlotNo) (s : State) :
    s.SameAround p (State.commitMembers p now tag ks s).1 := by
  obtain ⟨others, l, o, own⟩ := State.port_commitMembers (p := p) (now := now) (tag := tag) ks s
  exact ⟨by simp [SharedKept, State.commitMembers_fields], others, by rw [own], by simp [State.commitMembers_fields],
    by simp [State.commitMembers_fields], by simp [State.commitMembers_fields]⟩

theorem State.SameAround.updatePort {f : PortUnit → PortUnit} (hf : ∀ u, (f u).fetch = u.fetch) :
    s.SameAround p (s.updatePort p f) where
  shared := by simp [SharedKept]
  others q hq := State.port_updatePort_ne s f hq
  fetch := by rw [State.port_updatePort, hf]
  jobs := by simp
  path := by simp
  last := by simp

theorem State.SameAround.groupTaken (s : State) (p : Port) : s.SameAround p (s.groupTaken p) :=
  (((State.SameAround.handCommand s p).trans (.commitMembers _ _)).trans
    (.updatePort (f := fun u =>
      { u with groupCounter := (s.port p).groupCounter + 1, openList := [], stagingPointer := none }) fun _ => rfl)).trans
    (.setResult _ p _ _)

theorem State.port_groupTaken :
    (s.groupTaken p).port p =
      { (s.handCommand p).port p with
        openList := [], stagingPointer := none, groupCounter := (s.port p).groupCounter + 1, result := .ok,
        rdata := rdataOf ([BitVec.ofNat 8 (s.port p).openList.length, (s.port p).groupCounter + 1] ++ bytes32 s.etc) } := by
  obtain ⟨-, l, o, own⟩ := State.port_commitMembers (p := p) (now := s.etc) (tag := some (s.groupTag p))
    (s.port p).openList (s.handCommand p)
  rw [State.groupTaken, State.port_setResult, if_pos rfl, State.port_updatePort, own]

/-- What a group commit leaves of slots, cells and entries, its port's unit aside. -/
theorem State.groupTaken_storage (s : State) (p : Port) (j : Job) :
    let v := (State.commitMembers p s.etc (some (s.groupTag p)) (s.port p).openList (s.handCommand p)).1
    (∀ k, ((s.groupTaken p).admitJob j).slot k = v.slot k) ∧ (∀ d, ((s.groupTaken p).admitJob j).cell d = v.cell d) ∧
      ∀ i, ((s.groupTaken p).admitJob j).entry i = v.entry i :=
  ⟨fun k => by simp [State.groupTaken], fun d => by simp [State.groupTaken], fun i => by simp [State.groupTaken]⟩

theorem State.GroupCommitted.congr (h : s.GroupCommitted t p now tag ks) (hslot : ∀ k, u.slot k = t.slot k)
    (hcell : ∀ d, u.cell d = t.cell d) (hentry : ∀ i, u.entry i = t.entry i) : s.GroupCommitted u p now tag ks where
  member k hk r x hc := (h.member k hk r x hc).keep (hslot k) (hcell _)
  cells d hd := by rw [hcell, h.cells d hd]
  slots k hk := by rw [hslot, h.slots k hk]
  entries i := by rw [hentry, h.entries i]

/-- Settles O30: the members' commits, then the admission of their job. -/
theorem commitGroupCommitsEveryMember : Obligations.CommitGroupCommitsEveryMember := by
  intro p v s h hu hcells hne hover hroom ks count content published
  have ready := hu.committable hcells p
  have noOverrun : s.anyOverrun (s.port p).openList = false := by
    rw [← Bool.not_eq_true, State.anyOverrun_iff]
    rintro ⟨k, hk, r, hr, x, hx, ho⟩
    rw [hover k hk r hr x hx] at ho
    cases ho
  have taken := h.takes rfl v (State.commitGroupBody_of_taken ready hne noOverrun hroom)
  rw [State.setResult_admitJob] at taken
  refine ⟨_, taken, ?_⟩
  obtain ⟨-, members⟩ := ready.handCommand (p := p) |>.commitMembers (p := p) (now := s.etc) (tag := some (s.groupTag p))
  obtain ⟨slots, cells, entries⟩ := s.groupTaken_storage p
    (.publish (s.membersOf p s.etc (some (s.groupTag p)) (s.port p).openList))
  have committed := members.of_handCommand.congr slots cells entries
  obtain ⟨jobs, port, path, -, others, shared⟩ := (State.SameAround.groupTaken s p).admitJob
    (.publish (s.membersOf p s.etc (some (s.groupTag p)) (s.port p).openList))
  rw [State.port_groupTaken] at port
  refine ⟨port, jobs, fun k hk r hr x hx => ?_, committed.cells, committed.slots, committed.entries, ?_, ?_, path, others,
    shared⟩
  · obtain ⟨y, z, hyz⟩ := ready.ready k hk
    obtain rfl : y = r := Option.some.inj (hyz.record.symm.trans hr)
    obtain rfl : z = x := Option.some.inj (hyz.openUpdate.symm.trans hx)
    obtain ⟨record, incarnation, cell⟩ := committed.member k hk _ _ hyz
    exact ⟨record, incarnation, cell⟩
  · simp [State.commitMembers_fields]
  · simp [State.commitMembers_fields]

end Sys2Proof.Machine
end

section
/-! PROOF. The fetch and the transfer path: FETCH, the completion of its copy, the routing of an unpinned cell, and the
grant (R9, R91 to R95, R101). -/

namespace Sys2Proof.Machine

variable {p q : Port} {s t u : State} {k : SlotNo} {r : Record} {c : CellNo}

/-! ### FETCH (R91 to R93) -/

theorem selectArg_of_gt {b : Byte} (h : 2 < b.toNat) : selectArg b = none := by
  have apart : ∀ x : Byte, x.toNat ≤ 2 → b ≠ x := by
    rintro x hx rfl
    omega
  simp only [selectArg, apart 0 (by decide), apart 1 (by decide), apart 2 (by decide), if_false]

/-- The version that a select byte chooses. -/
def State.chosenBy (s : State) (b : Byte) (low : Half) (vs : List CellNo) : Option CellNo :=
  if b = 0 then vs.getLast?
  else if b = 1 then vs.head?
  else vs.find? fun c => (s.cell c).content.sequence.setWidth 16 == low

theorem low16_eq (w : BitVec 32) : low16 w = w.setWidth 16 := extractLsb'_zero w 16

theorem State.chooseVersion_of_le {b : Byte} (h : b.toNat ≤ 2) (s : State) :
    ∃ sel, selectArg b = some sel ∧ ∀ low vs, s.chooseVersion sel low vs = s.chosenBy b low vs := by
  have last : b ≠ 0 → b ≠ 1 → b = 2 := by
    intro h0 h1
    bv_omega
  by_cases h0 : b = 0
  · exact ⟨.latest, by rw [selectArg, if_pos h0], fun low vs => by rw [State.chosenBy, if_pos h0]; rfl⟩
  by_cases h1 : b = 1
  · exact ⟨.oldest, by rw [selectArg, if_neg h0, if_pos h1], fun low vs => by
      rw [State.chosenBy, if_neg h0, if_pos h1]; rfl⟩
  · refine ⟨.seq, by rw [selectArg, if_neg h0, if_neg h1, if_pos (last h0 h1)], fun low vs => ?_⟩
    rw [State.chosenBy, if_neg h0, if_neg h1]
    simp only [State.chooseVersion, low16_eq]

theorem State.chosenBy_handCommand (b : Byte) (low : Half) (vs : List CellNo) :
    (s.handCommand p).chosenBy b low vs = s.chosenBy b low vs := by
  simp only [State.chosenBy, State.cell_handCommand]

theorem FetchState.isInFlight_iff {f : FetchState} : f.isInFlight = true ↔ f.pinned ≠ none := by
  cases f <;> simp [FetchState.isInFlight, FetchState.pinned]

theorem State.fetch_handCommand : ((s.handCommand p).port p).fetch = (s.port p).fetch := by
  simp

theorem State.fetchBody_of_badSelect (h : 2 < ((s.port p).arg8 2).toNat) :
    (s.handCommand p).fetchBody p = .refuse .badArg := by
  simp only [State.fetchBody, State.arg8_handCommand, selectArg_of_gt h]
  cases slotArg ((s.port p).arg8 0) <;> rfl

theorem State.fetchBody_of_error {e : Result} (hk : ((s.port p).arg8 0).toNat = k.val)
    (hs : ((s.port p).arg8 2).toNat ≤ 2) (he : s.checkSlot ((s.port p).arg8 0) ((s.port p).arg8 1) = .error e) :
    (s.handCommand p).fetchBody p = .refuse e := by
  obtain ⟨sel, hsel, -⟩ := s.chooseVersion_of_le hs
  simp only [State.fetchBody, State.arg8_handCommand, slotArg_of_eq hk, hsel, State.checkSlot_handCommand, he]

/-- Past the slot check, the fetch in flight and the choice of a version decide. -/
theorem State.fetchBody_of_named (hn : s.Names p k r) (hs : ((s.port p).arg8 2).toNat ≤ 2) :
    ((s.port p).fetch.pinned ≠ none → (s.handCommand p).fetchBody p = .refuse .fetchBusy) ∧
      ((s.port p).fetch.pinned = none → s.chosenBy ((s.port p).arg8 2) ((s.port p).arg16 3 4) r.versions = none →
        (s.handCommand p).fetchBody p = .refuse .noVersion) ∧
      ((s.port p).fetch.pinned = none → s.chosenBy ((s.port p).arg8 2) ((s.port p).arg16 3 4) r.versions = some c →
        (s.handCommand p).fetchBody p =
          .take (((s.handCommand p).setCell c { s.cell c with pins := (s.cell c).pins + 1 }).updatePort p
            fun u => u.fetchTaken k c).grant (bytes32 (s.cell c).content.sequence)) := by
  obtain ⟨sel, hsel, choice⟩ := (s.handCommand p).chooseVersion_of_le hs
  have hslot : slotArg ((s.port p).arg8 0) = some k := slotArg_of_eq hn.1
  refine ⟨fun hf => ?_, fun hf hc => ?_, fun hf hc => ?_⟩
  · simp only [State.fetchBody, State.arg8_handCommand, hslot, hsel, State.checkSlot_handCommand, hn.checkSlot,
      State.fetch_handCommand, FetchState.isInFlight_iff.mpr hf, if_true]
  · simp only [State.fetchBody, State.arg8_handCommand, State.arg16_handCommand, hslot, hsel, State.checkSlot_handCommand,
      hn.checkSlot, State.fetch_handCommand, mt FetchState.isInFlight_iff.mp (not_not.mpr hf), choice,
      State.chosenBy_handCommand, hc, Bool.false_eq_true, if_false]
  · simp only [State.fetchBody, State.arg8_handCommand, State.arg16_handCommand, hslot, hsel, State.checkSlot_handCommand,
      hn.checkSlot, State.fetch_handCommand, mt FetchState.isInFlight_iff.mp (not_not.mpr hf), choice,
      State.chosenBy_handCommand, hc, State.pinCell, State.cell_handCommand, Bool.false_eq_true,
      if_false]

/-- Settles O34: the checks in their order, then the pin and the request of the path. -/
theorem fetchPinsAVersion : Obligations.FetchPinsAVersion := by
  intro p v k s h hk u
  refine ⟨fun hbad => h.refuses rfl v (State.fetchBody_of_badSelect hbad), fun hs hgone => h.refuses rfl v ?_, ?_⟩
  · exact State.fetchBody_of_error hk hs (State.checkSlot_of_gone hk hgone)
  · intro r hr hi hs chosen
    have named : s.Names p k r := ⟨hk, hr, hi⟩
    refine ⟨fun hf => h.refuses rfl v ((State.fetchBody_of_named (c := 0) named hs).1 hf), fun hf hc =>
      h.refuses rfl v ((State.fetchBody_of_named (c := 0) named hs).2.1 hf hc), fun hf c hc => ?_⟩
    exact h.takes rfl v ((State.fetchBody_of_named named hs).2.2 hf hc)

/-! ### COPY_COMPLETION and the routing of R9 (R9, R95, R101) -/

theorem exec_copyCompletion (s : State) : exec .copyCompletion s = execCopyCompletion s := rfl

theorem exec_copyCompletion_of_copying (hpath : s.path = some (.port p)) (hf : (s.port p).fetch = .inFlight .copying c) :
    exec .copyCompletion s =
      .next (State.grant
        { (State.unpinCell (s.updatePort p fun w => w.delivered (s.cell c).content) c) with path := none }) := by
  simp only [exec_copyCompletion, execCopyCompletion, hpath, hf]

theorem exec_copyCompletion_of_noPort (h : s.path.elim true (fun r => r == .du) = true) :
    exec .copyCompletion s = .next s := by
  rw [exec_copyCompletion, execCopyCompletion]
  cases hp : s.path with
  | none => rfl
  | some r =>
    cases r with
    | du => rfl
    | port p =>
      rw [hp] at h
      simp at h

/-- A state with the pin of a cell dropped and the cell not yet routed. -/
def State.lowered (s : State) (c : CellNo) : State := s.setCell c { s.cell c with pins := (s.cell c).pins - 1 }

theorem State.unpinCell_of_more (h : 1 < (s.cell c).pins) : s.unpinCell c = s.lowered c := by
  rw [State.unpinCell, if_neg (by omega)]
  rfl

theorem State.unpinCell_of_last (h : (s.cell c).pins = 1) : s.unpinCell c = (s.lowered c).routeUnpinned c := by
  rw [State.unpinCell, if_pos h]
  rfl

theorem CellLaw.lowered (hs : CellLaw s) (c : CellNo) : CellLaw (s.lowered c) := hs.of_same rfl rfl rfl

/-- A version stays where it is when its last pin is dropped (R9). -/
theorem State.routeUnpinned_version (hs : CellLaw s) (hr : s.record k = some r) (hc : c ∈ r.versions) :
    s.routeUnpinned c = s := by
  have here : c ∈ s.cellsAt k := by
    rw [State.cellsAt_of_record hr]
    exact Record.mem_cells.mpr (.inl hc)
  have notDetached : s.detached.contains c = false := by simpa using (hs.listed here).2
  have notOwed : s.slotOwing c = none := by
    refine List.find?_eq_none.mpr fun j _ => ?_
    cases hj : s.record j with
    | none => simp
    | some x =>
      simp only [beq_iff_eq]
      intro hx
      have there : c ∈ s.cellsAt j := by
        rw [State.cellsAt_of_record hj]
        exact Record.mem_cells.mpr (.inr (.inr (by rw [hx]; rfl)))
      obtain rfl := hs.slot_eq there here
      obtain rfl : x = r := Option.some.inj (hj.symm.trans hr)
      exact (hs.cells_distinct hr).1 (by rw [hx]; exact hc)
  simp only [State.routeUnpinned, notDetached, Bool.false_eq_true, if_false, notOwed]

/-- Settles O35: the copy's delivery, and the cases of the routing. -/
theorem copyCompletionAndUnpin : Obligations.CopyCompletionAndUnpin := by
  refine ⟨fun p c s hpath hf => exec_copyCompletion_of_copying hpath hf, fun s h => exec_copyCompletion_of_noPort h, ?_⟩
  intro c s hs hpins t
  have law : CellLaw t := hs.lowered c
  refine ⟨fun h => State.unpinCell_of_more h, fun h hd => ?_, fun k r hr h hn => ?_, fun k r hr hc => ?_⟩
  · rw [State.unpinCell_of_last h]
    exact State.routeUnpinned_detached hd
  · rw [State.unpinCell_of_last h]
    exact State.routeUnpinned_owed law hr hn
  · by_cases h : (s.cell c).pins = 1
    · rw [State.unpinCell_of_last h]
      exact State.routeUnpinned_version law hr hc
    · exact State.unpinCell_of_more (by omega)

/-! ### The grant (R94, R101) -/

/-- The cyclic order of the statements is the model's. -/
theorem Requester.orderAfter_eq (x : Requester) :
    let order : List Requester := [.du, .port .a, .port .b, .port .c, .port .d]
    order.rotateLeft (order.findIdx (fun r => r == x) + 1) = x.orderAfter := by
  cases x with
  | du => rfl
  | port p => cases p <;> rfl

theorem State.grantTo_eq (s : State) (r : Requester) :
    s.grantTo r =
      { s.updatePorts (fun p w =>
          { w with
            fetch := if r = .port p then
                (match w.fetch with | .inFlight _ c => .inFlight .copying c | f => f)
              else w.fetch }) with
        path := some r, lastGranted := r } := by
  have granted : ∀ f : FetchState, f.granted = (match f with | .inFlight _ c => .inFlight .copying c | f => f) := by
    intro f
    cases f <;> rfl
  cases r with
  | du => rfl
  | port p =>
    simp only [State.grantTo, granted]
    cases p <;> rfl

theorem State.waits_du_iff : s.waits .du = true ↔ s.jobs ≠ [] ∧ s.path ≠ some .du := by
  simp [State.waits]

/-- Settles O36: the first waiting requester of the cyclic order is the one that the grant finds. -/
theorem grantFollowsTheCyclicOrder : Obligations.GrantFollowsTheCyclicOrder := by
  refine ⟨?_, fun s => State.waits_du_iff, fun p s => waits_port⟩
  intro s order place waiting
  have head : waiting.head? = s.lastGranted.orderAfter.find? s.waits := by
    rw [List.head?_filter, Requester.orderAfter_eq]
  refine ⟨fun hp => ?_, fun hw => ?_, fun hp r hr => ?_⟩
  · obtain ⟨r, hr⟩ := Option.ne_none_iff_exists'.mp hp
    exact State.grant_of_held hr
  · rw [hw] at head
    cases hp : s.path with
    | some r => exact State.grant_of_held hp
    | none => rw [State.grant_of_free hp, ← head, List.head?_nil]
  · rw [State.grant_of_free hp, ← head, hr]
    exact s.grantTo_eq r

end Sys2Proof.Machine
end

section
/-! PROOF. Requests: what REQUEST answers on a slot with a producer, and CANCEL_REQUEST (R133 to R141). -/

namespace Sys2Proof.Machine

variable {p q : Port} {s t u : State} {k : SlotNo} {r : Record} {c : CellNo} {i : EntryNo}

/-! ### What the table says (R133, R134) -/

theorem State.hasEntry_iff :
    s.hasEntry p k = true ↔
      ∃ i, ∃ e ∈ s.entry i, e.requester = p ∧ (e.slot == k && e.incarnation == (s.slot k).incarnation) = true := by
  simp only [State.hasEntry, List.any_eq_true, State.waitingEntries, List.mem_filterMap, mem_allEntries, true_and,
    Bool.and_eq_true, beq_iff_eq, Entry.waitsOn, Option.mem_def]
  constructor
  · rintro ⟨e, ⟨i, hi⟩, he⟩
    exact ⟨i, e, hi, he⟩
  · rintro ⟨i, e, hi, he⟩
    exact ⟨e, ⟨i, hi⟩, he⟩

theorem State.requestersOn_eq_nil :
    s.requestersOn k = [] ↔ ∀ i, ∀ e ∈ s.entry i, (e.slot == k && e.incarnation == (s.slot k).incarnation) = false := by
  simp only [State.requestersOn, List.map_eq_nil_iff, List.filter_eq_nil_iff, State.waitingEntries, List.mem_filterMap,
    mem_allEntries, true_and, Entry.waitsOn, Bool.not_eq_true, Option.mem_def]
  exact ⟨fun h i e hi => h e ⟨i, hi⟩, fun h e ⟨i, hi⟩ => h i e hi⟩

theorem State.requestCount_eq_length (s : State) (p : Port) :
    s.requestCount p = ((List.finRange 16).filter fun i => (s.requests[i]).any fun e => e.requester == p).length := by
  rw [State.requestCount, State.waitingEntries, State.length_filter_entries]
  rfl

theorem State.lowestEmptyEntry_eq_some (hi : s.entry i = none) (hmin : ∀ j, j < i → s.entry j ≠ none) :
    s.lowestEmptyEntry = some i :=
  find?_finRange (by rw [hi]; rfl) fun j hj => Option.isNone_eq_false_iff.mpr (Option.isSome_iff_ne_none.mpr (hmin j hj))

theorem State.lowestEmptyEntry_eq_none : s.lowestEmptyEntry = none ↔ ∀ i, s.entry i ≠ none := by
  simp [State.lowestEmptyEntry]

/-! ### A command taken in hand finds the table as it was -/

theorem State.hasEntry_handCommand : (s.handCommand p).hasEntry q k = s.hasEntry q k := by
  have entries : (s.handCommand p).entry = s.entry := funext (State.entry_handCommand s p)
  simp only [State.hasEntry, State.waitingEntries, entries, State.slot_handCommand]

theorem State.requestCount_handCommand : (s.handCommand p).requestCount q = s.requestCount q := by
  have entries : (s.handCommand p).entry = s.entry := funext (State.entry_handCommand s p)
  simp only [State.requestCount, State.waitingEntries, entries]

theorem State.lowestEmptyEntry_handCommand : (s.handCommand p).lowestEmptyEntry = s.lowestEmptyEntry := by
  simp only [State.lowestEmptyEntry, State.entry_handCommand]

/-! ### The course of a REQUEST (R135 to R138) -/

/-- A record whose requests are answered at once (R136). -/
def Record.AnswersAtOnce (r : Record) : Prop := r.autoAnswer = true ∧ r.versions ≠ [] ∧ r.openUpdate = none

theorem State.requestCourse_of_atOnce (h : r.AnswersAtOnce) (hc : r.versions.getLast? = some c) :
    s.requestCourse p k r q = s.answerNow p k r c := by
  obtain ⟨hauto, -, ho⟩ := h
  simp only [State.requestCourse, hc, hauto, ho, Option.isNone_none, Bool.and_self, if_true]

theorem State.requestCourse_of_entry (h : ¬ r.AnswersAtOnce) : s.requestCourse p k r q = s.makeEntry p k r q := by
  unfold State.requestCourse
  split
  · rfl
  next c hc =>
    refine if_neg fun ho => h ?_
    rw [Bool.and_eq_true, Option.isNone_iff_eq_none] at ho
    exact ⟨ho.1, fun hnil => by simp [hnil] at hc, ho.2⟩

theorem State.answerNow_of_full (h : s.hasRoom = false) : s.answerNow p k r c = .refuse .retry := by
  simp only [State.answerNow, h, Bool.false_eq_true, if_false]

theorem State.makeEntry_of_noRoom (h : ¬ ((∃ i, s.entry i = none) ∧ s.requestCount p < 4)) :
    s.makeEntry p k r q = .refuse .tableFull := by
  unfold State.makeEntry
  split
  · rfl
  next i hi =>
    have empty : ∃ i, s.entry i = none := by
      have found := List.find?_some hi
      exact ⟨i, Option.isNone_iff_eq_none.mp found⟩
    have many : Config.requestCapacityPerPort ≤ s.requestCount p := by
      rw [Config.requestCapacityPerPort]
      by_contra hlt
      exact h ⟨empty, by omega⟩
    rw [if_pos many]

/-- The entry that a REQUEST makes (R138). -/
def State.entryFor (s : State) (p : Port) (k : SlotNo) : Entry :=
  { requester := p, slot := k, incarnation := (s.slot k).incarnation, issueTime := s.etc,
    deadline := s.etc + s.answerTimeout.setWidth 32 }

/-- With an empty position and a count below 4, the entry is made; the first on its slot needs a job. -/
theorem State.makeEntry_of_room (hi : s.lowestEmptyEntry = some i) (hcount : s.requestCount p < 4) :
    (s.requestersOn k = [] → s.hasRoom = false → s.makeEntry p k r q = .refuse .retry) ∧
      (s.requestersOn k = [] → s.hasRoom = true →
        s.makeEntry p k r q =
          .take ((s.setEntry i (some (s.entryFor p k))).admitJob (.requestFwd (s.subject k r) q r.lastSequence s.etc))
            ([2] ++ bytes32 (s.entryFor p k).deadline ++ [1])) ∧
      (s.requestersOn k ≠ [] →
        s.makeEntry p k r q =
          .take (s.setEntry i (some (s.entryFor p k))) ([2] ++ bytes32 (s.entryFor p k).deadline ++ [0])) := by
  have few : ¬ Config.requestCapacityPerPort ≤ s.requestCount p := by
    rw [Config.requestCapacityPerPort]
    omega
  refine ⟨fun hf hr => ?_, fun hf hr => ?_, fun hf => ?_⟩
  · simp only [State.makeEntry, hi, few, if_false, hf, if_true, hr, Bool.false_eq_true]
  · simp only [State.makeEntry, hi, few, if_false, hf, if_true, hr]
    rfl
  · simp only [State.makeEntry, hi, few, if_false, hf]
    rfl

/-! ### REQUEST (R135, R136) -/

theorem Record.life_of_producer (h : r.producer = some q) : ∃ stage d, r.life = .produced stage q d := by
  unfold Record.producer at h
  split at h
  next stage q' d hl =>
    obtain rfl := Option.some.inj h
    exact ⟨stage, d, hl⟩
  · cases h

theorem Record.producer_of_notOrphan (h : r.isOrphan = false) : ∃ q, r.producer = some q := by
  unfold Record.isOrphan at h
  unfold Record.producer
  split at h
  next q _ _ => exact ⟨q, rfl⟩
  · cases h

theorem State.requestBody_of_orphan (hn : s.Names p k r) (ho : r.isOrphan = true) :
    (s.handCommand p).requestBody p = .refuse .notLive := by
  unfold Record.isOrphan at ho
  split at ho
  · cases ho
  next since hl => simp only [State.requestBody, hn.handCommand.checkSlot, hl]

theorem State.requestBody_of_own (hn : s.Names p k r) (hp : r.producer = some p) :
    (s.handCommand p).requestBody p = .refuse .notProducer := by
  obtain ⟨stage, d, hl⟩ := Record.life_of_producer hp
  simp only [State.requestBody, hn.handCommand.checkSlot, hl, if_true]

theorem State.requestBody_of_pending (hn : s.Names p k r) (hq : r.producer = some q) (hne : q ≠ p)
    (he : s.hasEntry p k = true) : (s.handCommand p).requestBody p = .refuse .pending := by
  obtain ⟨stage, d, hl⟩ := Record.life_of_producer hq
  simp only [State.requestBody, hn.handCommand.checkSlot, hl, hne, if_false, State.hasEntry_handCommand, he, if_true]

theorem State.requestBody_of_course (hn : s.Names p k r) (hq : r.producer = some q) (hne : q ≠ p)
    (he : s.hasEntry p k = false) :
    (s.handCommand p).requestBody p = (s.handCommand p).requestCourse p k r q := by
  obtain ⟨stage, d, hl⟩ := Record.life_of_producer hq
  simp only [State.requestBody, hn.handCommand.checkSlot, hl, hne, if_false, State.hasEntry_handCommand, he,
    Bool.false_eq_true]

theorem State.makeEntry_handCommand_noRoom (h : ¬ ((∃ i, s.entry i = none) ∧ s.requestCount p < 4)) :
    (s.handCommand p).makeEntry p k r q = .refuse .tableFull := by
  refine State.makeEntry_of_noRoom ?_
  simpa only [State.entry_handCommand, State.requestCount_handCommand] using h

/-- Settles O37: the producer, the caller's entry, the room in the table and the job queue decide, in that order. -/
theorem requestIsRefusedInOrder : Obligations.RequestIsRefusedInOrder := by
  refine ⟨?_, fun p s => s.requestCount_eq_length p⟩
  intro p v k r s h hn waits mine first atOnce room
  have mine_iff : s.hasEntry p k = true ↔ mine := State.hasEntry_iff
  refine ⟨fun hp => h.refuses rfl v (State.requestBody_of_own hn hp), fun ho => h.refuses rfl v (State.requestBody_of_orphan hn ho),
    fun ho hp => ?_⟩
  obtain ⟨q, hq⟩ := Record.producer_of_notOrphan ho
  have hne : q ≠ p := by
    rintro rfl
    exact hp hq
  refine ⟨fun hm => h.refuses rfl v (State.requestBody_of_pending hn hq hne (mine_iff.mpr hm)), fun hm hnot hfull => ?_,
    fun hm hyes hfull => ?_⟩
  · have none : s.hasEntry p k = false := Bool.eq_false_iff.mpr (mt mine_iff.mp hm)
    refine h.refuses rfl v ?_
    rw [Command.body, State.requestBody_of_course hn hq hne none, State.requestCourse_of_entry hnot,
      State.makeEntry_handCommand_noRoom hfull]
  · have none : s.hasEntry p k = false := Bool.eq_false_iff.mpr (mt mine_iff.mp hm)
    have noRoom : (s.handCommand p).hasRoom = false := by
      rw [State.hasRoom_handCommand]
      exact State.hasRoom_eq_false_iff.mpr hfull
    refine h.refuses rfl v ?_
    rw [Command.body, State.requestBody_of_course hn hq hne none]
    by_cases ha : r.AnswersAtOnce
    · obtain ⟨c, hc⟩ : ∃ c, r.versions.getLast? = some c :=
        Option.isSome_iff_exists.mp (by simpa using ha.2.1)
      rw [State.requestCourse_of_atOnce ha hc, State.answerNow_of_full noRoom]
    · obtain ⟨⟨⟨i, hi⟩, hcount⟩, hfirst⟩ := hyes.resolve_left ha
      obtain ⟨j, hj⟩ : ∃ j, s.lowestEmptyEntry = some j :=
        Option.ne_none_iff_exists'.mp fun hnone => State.lowestEmptyEntry_eq_none.mp hnone i hi
      have made := State.makeEntry_of_room (s := s.handCommand p) (p := p) (k := k) (r := r) (q := q)
        (State.lowestEmptyEntry_handCommand.trans hj) (by rwa [State.requestCount_handCommand])
      rw [State.requestCourse_of_entry ha]
      refine made.1 ?_ noRoom
      rw [State.requestersOn_handCommand]
      exact State.requestersOn_eq_nil.mpr hfirst

/-- No entry of the caller stands on the slot, in the words of the statements. -/
theorem State.hasEntry_eq_false_of
    (h : ∀ i, ∀ e ∈ s.entry i, ¬ (e.requester = p ∧ e.slot = k ∧ e.incarnation = (s.slot k).incarnation)) :
    s.hasEntry p k = false :=
  State.hasEntry_eq_false.mpr fun i e he hp =>
    Bool.eq_false_iff.mpr fun hw => h i e he ⟨hp, Entry.waitsOn_iff.mp hw⟩

theorem State.requestersOn_eq_nil_iff :
    s.requestersOn k = [] ↔ ∀ i, ∀ e ∈ s.entry i, ¬ (e.slot = k ∧ e.incarnation = (s.slot k).incarnation) := by
  simp [State.requestersOn_eq_nil]

theorem State.entryFor_handCommand : (s.handCommand p).entryFor p k = s.entryFor p k := by
  simp [State.entryFor]

theorem Record.not_answersAtOnce (h : r.autoAnswer = false ∨ r.versions = [] ∨ r.openUpdate ≠ none) : ¬ r.AnswersAtOnce := by
  rintro ⟨hauto, hversions, ho⟩
  obtain h | h | h := h
  · rw [hauto] at h
    cases h
  · exact hversions h
  · exact h ho

/-- What REQUEST does where its entry is made: whether it is the first on its slot decides (R138). -/
theorem State.requestBody_of_entry (hn : s.Names p k r) (hq : r.producer = some q) (hne : q ≠ p)
    (he : s.hasEntry p k = false) (hnot : ¬ r.AnswersAtOnce) (hi : s.lowestEmptyEntry = some i)
    (hcount : s.requestCount p < 4) :
    (s.requestersOn k = [] → s.hasRoom = true →
        (s.handCommand p).requestBody p =
          .take (((s.handCommand p).setEntry i (some (s.entryFor p k))).admitJob
              (.requestFwd (s.subject k r) q r.lastSequence s.etc))
            ([2] ++ bytes32 (s.entryFor p k).deadline ++ [1])) ∧
      (s.requestersOn k ≠ [] →
        (s.handCommand p).requestBody p =
          .take ((s.handCommand p).setEntry i (some (s.entryFor p k)))
            ([2] ++ bytes32 (s.entryFor p k).deadline ++ [0])) := by
  obtain ⟨-, made, listed⟩ := State.makeEntry_of_room (s := s.handCommand p) (p := p) (k := k) (r := r) (q := q)
    (State.lowestEmptyEntry_handCommand.trans hi) (by rwa [State.requestCount_handCommand])
  rw [State.requestersOn_handCommand, State.hasRoom_handCommand, State.entryFor_handCommand, State.subject_handCommand,
    State.etc_handCommand] at made
  rw [State.requestersOn_handCommand, State.entryFor_handCommand] at listed
  rw [State.requestBody_of_course hn hq hne he, State.requestCourse_of_entry hnot]
  exact ⟨made, listed⟩

/-- Settles O38: the answer of the newest version, or the entry in the lowest empty position. -/
theorem requestIsAnsweredOrWaits : Obligations.RequestIsAnsweredOrWaits := by
  refine ⟨?_, ?_⟩
  · intro p v k r c s h hn horphan hp hnone hauto hc ho hroom x
    obtain ⟨q, hq⟩ := Record.producer_of_notOrphan horphan
    have hne : q ≠ p := by
      rintro rfl
      exact hp hq
    have atOnce : r.AnswersAtOnce := ⟨hauto, fun hnil => by simp [hnil] at hc, ho⟩
    have body : (s.handCommand p).requestBody p =
        .take ((s.handCommand p).admitJob
            (.answerNow (s.subject k r) p x.sequence x.commitTime (x.byteAt 0) (x.byteAt 1)))
          ([1] ++ bytes32 x.sequence ++ bytes32 x.commitTime) := by
      rw [State.requestBody_of_course hn hq hne (State.hasEntry_eq_false_of hnone), State.requestCourse_of_atOnce atOnce hc]
      simp only [State.answerNow, State.hasRoom_handCommand, State.hasRoom_iff.mpr hroom, if_true, State.cell_handCommand,
        State.subject_handCommand]
      rfl
    have taken := h.takes rfl v body
    rw [State.admitJob_of_jobs (State.jobs_handCommand s p)] at taken
    exact taken
  · intro p q v k r i s h hn hq hne hnone hnot hi hmin hcount deadline t first
    have first_iff : s.requestersOn k = [] ↔ first := State.requestersOn_eq_nil_iff
    obtain ⟨made, listed⟩ := State.requestBody_of_entry hn hq hne (State.hasEntry_eq_false_of hnone)
      (Record.not_answersAtOnce hnot) (State.lowestEmptyEntry_eq_some hi hmin) hcount
    refine ⟨fun hf => h.takes rfl v (listed (mt first_iff.mp hf)), fun hf hroom => ?_⟩
    have taken := h.takes rfl v (made (first_iff.mpr hf) (State.hasRoom_iff.mpr hroom))
    rw [State.admitJob_of_jobs (l := s.jobs)] at taken
    · exact taken
    · simp

/-! ### CANCEL_REQUEST (R141) -/

theorem State.cancelRequestBody_of_named (hn : s.Names p k r) :
    (s.hasEntry p k = false → (s.handCommand p).cancelRequestBody p = .refuse .notPending) ∧
      (s.hasEntry p k = true →
        (s.handCommand p).cancelRequestBody p =
          .take ((s.handCommand p).removeEntries fun e =>
            e.requester == p && (e.slot == k && e.incarnation == (s.slot k).incarnation)) []) := by
  refine ⟨fun he => ?_, fun he => ?_⟩
  · simp only [State.cancelRequestBody, hn.handCommand.checkSlot, State.hasEntry_handCommand, he, Bool.false_eq_true,
      if_false]
  · simp only [State.cancelRequestBody, hn.handCommand.checkSlot, State.hasEntry_handCommand, he, if_true,
      State.slot_handCommand, Entry.waitsOn]

/-- Settles O39: of the state the command was handed, only the caller's entry goes. -/
theorem cancelRequestIsQuiet : Obligations.CancelRequestIsQuiet := by
  intro p v k r s h hn mine
  obtain ⟨absent, present⟩ := State.cancelRequestBody_of_named hn
  have mine_iff : s.hasEntry p k = true ↔ ∃ i, ∃ e ∈ s.entry i, mine e = true := by
    rw [State.hasEntry_iff]
    simp only [mine, Bool.and_eq_true, beq_iff_eq]
  refine ⟨fun hnone => h.refuses rfl v (absent (Bool.eq_false_iff.mpr fun he => ?_)), fun hsome => ?_⟩
  · obtain ⟨i, e, hi, hm⟩ := mine_iff.mp he
    rw [hnone i e hi] at hm
    cases hm
  · refine ⟨_, h.takes rfl v (present (mine_iff.mpr hsome)), fun i => ?_, ?_⟩
    · rw [State.entry_setResult, State.entry_removeEntries, State.entry_handCommand]
    · cases p <;> rfl

end Sys2Proof.Machine
end

section
/-! PROOF. The visits of the Supervision Scanner (R109 to R117, R140). -/

namespace Sys2Proof.Machine

variable {p q : Port} {s t u : State} {k : SlotNo} {r : Record} {i : EntryNo} {e : Entry}

/-! ### The position moves on (R109) -/

/-- The state with the scan at a position (R109). -/
def State.scanAt (s : State) (n : Fin 80) : State := { s with scan := n }

theorem State.waits_scanAt (s : State) (n : Fin 80) : (s.scanAt n).waits = s.waits :=
  State.waits_congr rfl rfl fun q => by cases q <;> rfl

/-- Who is granted the path does not depend on the scan position (R101). -/
theorem State.grant_scanAt (s : State) (n : Fin 80) : (s.scanAt n).grant = s.grant.scanAt n := by
  cases hp : s.path with
  | some r => rw [State.grant_of_held hp, State.grant_of_held (s := s.scanAt n) hp]
  | none =>
    have last : (s.scanAt n).lastGranted = s.lastGranted := rfl
    rw [State.grant_of_free hp, State.grant_of_free (s := s.scanAt n) hp, State.waits_scanAt, last]
    cases s.lastGranted.orderAfter.find? s.waits with
    | none => rfl
    | some r =>
      cases r with
      | du => rfl
      | port p => cases p <;> rfl

/-- A job admitted at a visit, and the position after it. -/
theorem State.scanOn_admitJob (s : State) (j : Job) :
    (s.admitJob j).scanOn = State.grant { s with scan := s.scan + 1, jobs := s.jobs ++ [j] } := by
  have moved : (s.admitJob j).scan = s.scan := by simp
  rw [State.scanOn, moved]
  exact (State.grant_scanAt { s with jobs := s.jobs ++ [j] } (s.scan + 1)).symm

theorem exec_scanVisitSlot (s : State) : exec .scanVisitSlot s = execScanVisitSlot s := rfl

theorem exec_scanVisitEntry (s : State) : exec .scanVisitEntry s = execScanVisitEntry s := rfl

theorem exec_scanVisitSlot_of_run (hm : s.mode = .run) (hk : s.scan.val = k.val) :
    exec .scanVisitSlot s = .next (s.visitSlot k).scanOn := by
  have slot : scanSlot s.scan = some k := by
    rw [scanSlot, dif_pos (by omega)]
    exact congrArg some (Fin.ext hk)
  simp only [exec_scanVisitSlot, execScanVisitSlot, hm, slot]

theorem exec_scanVisitEntry_of_run (hm : s.mode = .run) (hi : s.scan.val = 64 + i.val) :
    exec .scanVisitEntry s = .next (s.visitEntry i).scanOn := by
  have entry : scanEntry s.scan = some i := by
    rw [scanEntry, if_pos (by omega)]
    refine congrArg some (Fin.ext ?_)
    simp only [Fin.ofNat, hi]
    omega
  simp only [exec_scanVisitEntry, execScanVisitEntry, hm, entry]

theorem exec_scanVisitSlot_idle (h : s.mode = .setup ∨ 64 ≤ s.scan.val) : exec .scanVisitSlot s = .next s := by
  rw [exec_scanVisitSlot, execScanVisitSlot]
  obtain hm | hs := h
  · rw [hm]
  · rw [scanSlot, dif_neg (by omega)]
    cases s.mode <;> rfl

theorem exec_scanVisitEntry_idle (h : s.mode = .setup ∨ s.scan.val < 64) : exec .scanVisitEntry s = .next s := by
  rw [exec_scanVisitEntry, execScanVisitEntry]
  obtain hm | hs := h
  · rw [hm]
  · rw [scanEntry, if_neg (by omega)]
    cases s.mode <;> rfl

/-! ### The visit to a slot (R111, R112, R115, R116) -/

theorem reached_eq (now time : Time) : reached now time = decide ((now - time).toNat < 2147483648) := rfl

/-- The deadline of a supervised CLAIMED or LIVE slot is reached (R111). -/
def State.lapsed (s : State) (r : Record) : Bool :=
  match r.life with
  | .produced .stale _ _ => false
  | .produced _ _ (some t) => r.period != 0 && decide ((s.etc - t).toNat < 2147483648)
  | _ => false

/-- The hold of an ORPHANED slot is reached (R115). -/
def State.expired (s : State) (r : Record) : Bool :=
  match r.life with
  | .orphaned since => s.orphanHold != 0 && decide ((s.etc - (since + s.orphanHold)).toNat < 2147483648)
  | _ => false

theorem State.checkDeadline_of_quiet {d : Option Time}
    (h : s.hasRoom = false ∨ ∀ time ∈ d, (r.period != 0 && decide ((s.etc - time).toNat < 2147483648)) = false) :
    s.checkDeadline k r q d = s := by
  cases d with
  | none => rfl
  | some time =>
    refine if_neg ?_
    rintro ⟨hperiod, hreached, hroom⟩
    obtain h | h := h
    · rw [h] at hroom
      cases hroom
    · exact Bool.eq_false_iff.mp (h time rfl) ((Bool.and_eq_true _ _).mpr ⟨bne_iff_ne.mpr hperiod, hreached⟩)

theorem State.visitSlot_of_quiet (hr : s.record k = some r)
    (h : s.hasRoom = false ∨ s.lapsed r = false ∧ s.expired r = false) : s.visitSlot k = s := by
  obtain ⟨key, depth, versions, next, spares, last, period, auto, life, watch⟩ := r
  simp only [State.visitSlot, hr]
  cases life with
  | produced stage q d =>
    have quiet := h.imp_right fun hl (time : Time) (ht : time ∈ d) (hs : stage ≠ .stale) =>
      show (period != 0 && decide ((s.etc - time).toNat < 2147483648)) = false by
        obtain rfl := Option.mem_def.mp ht
        cases stage
        · exact hl.1
        · exact hl.1
        · exact absurd rfl hs
    cases stage with
    | claimed => exact State.checkDeadline_of_quiet (quiet.imp_right fun hq time ht => hq time ht nofun)
    | live => exact State.checkDeadline_of_quiet (quiet.imp_right fun hq time ht => hq time ht nofun)
    | stale => rfl
  | orphaned since =>
    refine if_neg ?_
    rintro ⟨hhold, hreached, hroom⟩
    obtain h | ⟨-, h⟩ := h
    · rw [h] at hroom
      cases hroom
    · exact Bool.eq_false_iff.mp h ((Bool.and_eq_true _ _).mpr ⟨bne_iff_ne.mpr hhold, hreached⟩)

theorem State.visitSlot_of_lapsed (hr : s.record k = some r) (hl : s.lapsed r = true) (hroom : s.hasRoom = true) :
    ∃ x q d, r.life = .produced x q d ∧ s.visitSlot k = s.lapse k r q d := by
  obtain ⟨key, depth, versions, next, spares, last, period, auto, life, watch⟩ := r
  cases life with
  | orphaned since => cases hl
  | produced stage q d =>
    refine ⟨stage, q, d, rfl, ?_⟩
    have due : ∀ time, (period != 0 && decide ((s.etc - time).toNat < 2147483648)) = true →
        period ≠ 0 ∧ reached s.etc time = true ∧ s.hasRoom = true := fun time ht => by
      rw [Bool.and_eq_true, bne_iff_ne] at ht
      exact ⟨ht.1, ht.2, hroom⟩
    simp only [State.visitSlot, hr]
    cases d with
    | none => cases stage <;> cases hl
    | some time =>
      cases stage with
      | claimed => exact if_pos (due time hl)
      | live => exact if_pos (due time hl)
      | stale => cases hl

theorem State.visitSlot_of_expired (hr : s.record k = some r) (he : s.expired r = true) (hroom : s.hasRoom = true) :
    s.visitSlot k = (s.freeSlot k).admitJob (.withdraw (s.subject k r) r.lastSequence s.etc []) := by
  obtain ⟨key, depth, versions, next, spares, last, period, auto, life, watch⟩ := r
  simp only [State.visitSlot, hr]
  cases life with
  | produced stage q d => cases he
  | orphaned since =>
    simp only [State.expired, Bool.and_eq_true, bne_iff_ne] at he
    exact if_pos ⟨he.1, he.2, hroom⟩

theorem State.visitSlot_of_free (hr : s.record k = none) : s.visitSlot k = s := by
  simp only [State.visitSlot, hr]

/-! ### The visit to an entry (R117, R140) -/

theorem State.visitEntry_of_quiet
    (h : s.entry i = none ∨ s.hasRoom = false ∨ ∀ e ∈ s.entry i, 2147483648 ≤ (s.etc - e.deadline).toNat) :
    s.visitEntry i = s := by
  unfold State.visitEntry
  split
  · rfl
  next e he =>
  split
  · rfl
  refine if_neg ?_
  rintro ⟨hreached, hroom⟩
  rw [reached_eq] at hreached
  have due := of_decide_eq_true hreached
  obtain h | h | h := h
  · rw [he] at h
    cases h
  · rw [h] at hroom
    cases hroom
  · have := h e he
    omega

theorem State.visitEntry_of_due (hi : s.entry i = some e) (hr : s.record e.slot = some r)
    (hd : (s.etc - e.deadline).toNat < 2147483648) (hroom : s.hasRoom = true) : s.visitEntry i = s.timeOut i e r := by
  simp only [State.visitEntry, hi, hr]
  exact if_pos ⟨decide_eq_true hd, hroom⟩

/-- A slot freed at a visit, with the position moved on, before its job joins the queue. -/
def State.freedAtVisit (s : State) (k : SlotNo) : State := (s.freeSlot k).scanAt (s.scan + 1)

/-- The effects of the end of an orphan hold (R115). -/
theorem State.freedAtVisit_admitJob (hr : s.record k = some r) (j : Job) :
    let t := (s.freedAtVisit k).admitJob j
    t.record k = none ∧ (t.slot k).incarnation = (s.slot k).incarnation ∧ (∀ j, j ≠ k → t.slot j = s.slot j) ∧
      CellsFreed r s t ∧ t.requests = s.requests ∧ t.jobs = s.jobs ++ [j] ∧ t.scan = s.scan + 1 ∧
      SharedKept { s with scan := s.scan + 1 } t ∧ PathGranted { s with jobs := t.jobs } t ∧
      ∀ q, { t.port q with fetch := (s.port q).fetch } = s.port q ∧ FetchKept (s.port q).fetch (t.port q).fetch := by
  intro t
  have slot : ∀ i, t.slot i = (s.freeSlot k).slot i := fun i => State.slot_admitJob _ _ i
  have record : ∀ i, t.record i = (s.freeSlot k).record i := fun i => State.record_admitJob _ _ i
  have ports : ∀ q, State.port { s.freedAtVisit k with jobs := (s.freedAtVisit k).jobs ++ [j] } q = s.port q := fun q => by
    rw [← State.port_freeSlot s k q]
    cases q <;> rfl
  refine ⟨by rw [record]; simp, by rw [slot]; simp, fun i hi => ?_, ?_, by simp [t, State.freedAtVisit, State.scanAt],
    by simp [t, State.freedAtVisit, State.scanAt], by simp [t, State.freedAtVisit, State.scanAt],
    by simp [t, State.freedAtVisit, State.scanAt, SharedKept], ?_, fun q => ?_⟩
  · exact State.slot_eq_of (by rw [slot]; simp) (by rw [record]; simp [hi])
  · exact (CellsFreed.freeSlot hr).of_agree rfl rfl rfl (by simp [t, State.freedAtVisit, State.scanAt])
      (by simp [t, State.freedAtVisit, State.scanAt]) (by simp [t, State.freedAtVisit, State.scanAt])
  · have path : (s.freeSlot k).path = s.path := by simp
    refine PathGranted.of_agree (State.admitJob_jobs _ j) path.symm
      (by simp [State.freedAtVisit, State.scanAt]) fun q => ?_
    rw [ports q]
    cases q <;> rfl
  · have kept := State.port_grant_kept { s.freedAtVisit k with jobs := (s.freedAtVisit k).jobs ++ [j] } q
    rwa [ports q] at kept

/-- Settles O40: a visit without a finding moves the position alone; a finding's job is admitted with it. -/
theorem scanVisits : Obligations.ScanVisits := by
  refine ⟨fun s h => exec_scanVisitSlot_idle h, ?_, fun k s hm hk hr => ?_, fun s h => exec_scanVisitEntry_idle h, ?_⟩
  · intro k r s hm hk hr about lapsed expired
    have visit := exec_scanVisitSlot_of_run hm hk
    have lapsed_eq : lapsed = s.lapsed r := rfl
    have expired_eq : expired = s.expired r := rfl
    refine ⟨fun h => ?_, fun hl hroom p hp => ?_, fun he hroom => ?_⟩
    · rw [visit, State.visitSlot_of_quiet hr (h.imp_left State.hasRoom_eq_false_iff.mpr)]
      rfl
    · obtain ⟨x, q, d, hlife, visited⟩ := State.visitSlot_of_lapsed hr (lapsed_eq ▸ hl) (State.hasRoom_iff.mpr hroom)
      obtain rfl : q = p := by
        have : r.producer = some q := by rw [Record.producer, hlife]
        exact Option.some.inj (this.symm.trans hp)
      rw [visit, visited, State.lapse, State.scanOn_admitJob, hlife]
      rfl
    · have visited := State.visitSlot_of_expired hr (expired_eq ▸ he) (State.hasRoom_iff.mpr hroom)
      have final : exec .scanVisitSlot s =
          .next ((s.freedAtVisit k).admitJob (.withdraw (s.subject k r) r.lastSequence s.etc [])) := by
        have scan : (s.freeSlot k).scan = s.scan := by simp
        rw [visit, visited, State.scanOn_admitJob, scan]
        rfl
      exact ⟨_, final, State.freedAtVisit_admitJob hr _⟩
  · rw [exec_scanVisitSlot_of_run hm hk, State.visitSlot_of_free hr]
    rfl
  · intro i s hm hi
    have visit := exec_scanVisitEntry_of_run hm hi
    refine ⟨fun h => ?_, fun e he r hr hd hroom => ?_⟩
    · rw [visit, State.visitEntry_of_quiet (h.imp_right fun h => h.imp_left State.hasRoom_eq_false_iff.mpr)]
      rfl
    · rw [visit, State.visitEntry_of_due he hr hd (State.hasRoom_iff.mpr hroom), State.timeOut, State.scanOn_admitJob]
      rfl

end Sys2Proof.Machine
end

section
/-! PROOF. The distribution event, and the notices that a job gives to a port (R50 to R65, R79). -/

namespace Sys2Proof.Machine

variable {p q : Port} {s t u : State}

/-! ### The distribution event (R56, R162) -/

theorem exec_distributionEvent (s : State) : exec .distributionEvent s = execDistributionEvent s := rfl

/-- The state after the head job was handed, before the barrier and the grant (R56). -/
def State.handed (s : State) (j : Job) (rest : List Job) : State :=
  { s.updatePorts (fun p u =>
      { u with
        queue :=
          (j.noticesFor u.filters p).foldl
            (Queue.decideOne (u.state == .doze) u.transaction.holdsHead (s.etc.setWidth 16)) u.queue }) with
    jobs := rest, path := none }

theorem State.distribute_eq_handed (s : State) (j : Job) (rest : List Job) :
    { s.distribute j with jobs := rest, path := none } = s.handed j rest := by
  rw [State.handed, ← low16_eq]
  rfl

theorem exec_distributionEvent_of_du {j : Job} {rest : List Job} (hp : s.path = some .du) (hj : s.jobs = j :: rest) :
    exec .distributionEvent s = .next (s.handed j rest).checkBarrier.grant := by
  simp only [exec_distributionEvent, execDistributionEvent, hp, hj, State.distribute_eq_handed]

theorem exec_distributionEvent_of_other (hp : s.path ≠ some .du) : exec .distributionEvent s = .next s := by
  rw [exec_distributionEvent, execDistributionEvent]
  cases h : s.path with
  | none => rfl
  | some r =>
    cases r with
    | du => exact absurd h hp
    | port p => rfl

theorem Transaction.holdsHead_iff (x : Transaction) :
    x.holdsHead = true ↔ ∃ a v g, x = .read a { value := v, effect := .noticeByte g } ∧ g.held = true := by
  constructor
  · intro h
    unfold Transaction.holdsHead at h
    split at h
    next a b =>
      obtain ⟨v, f⟩ := b
      cases f with
      | noticeByte g => exact ⟨a, v, g, rfl, h⟩
      | _ => cases h
    all_goals cases h
  · rintro ⟨a, v, g, rfl, h⟩
    exact h

/-- Settles O41: the notices handed, then the barrier in SETUP, then the grant. -/
theorem distributionHandsTheHeadJob : Obligations.DistributionHandsTheHeadJob := by
  refine ⟨?_, fun s => exec_distributionEvent_of_other, Transaction.holdsHead_iff⟩
  intro j rest s hp hj handed
  have event := exec_distributionEvent_of_du hp hj
  refine ⟨fun hm => ?_, fun _ => ⟨_, exec_runTransition _, event⟩⟩
  have run : (s.handed j rest).mode = .run := hm
  rw [event, State.checkBarrier_run run]
  rfl

/-! ### The notices of a job about one record (R58, R59, R61 to R65) -/

theorem Published.published_eq (m : Published) (o : Options) :
    m.published o =
      { kind := .published, slot := BitVec.ofNat 8 m.subject.slot.val, incarnation := m.subject.incarnation, more := false,
        recovered := m.recovered, inlined := o.inlined, wake := false, coalesced := false, detail := 0,
        value := m.sequence.setWidth 16,
        data := if o.inlined = true then m.byte0 ++ m.byte1 else m.commitTime.setWidth 16, cls := .normal,
        coalescible := false } := by
  simp only [Published.published, timeOrData, low16_eq]
  rfl

theorem answerNotice_eq (x : Subject) (o : Options) (sequence : Seq) (time : Time) (b0 b1 : Byte) :
    answerNotice x o sequence time b0 b1 =
      { kind := .answer, slot := BitVec.ofNat 8 x.slot.val, incarnation := x.incarnation, more := false,
        recovered := false, inlined := o.inlined, wake := false, coalesced := false, detail := 0,
        value := sequence.setWidth 16, data := if o.inlined = true then b0 ++ b1 else time.setWidth 16, cls := .urgent,
        coalescible := false } := by
  simp only [answerNotice, timeOrData, low16_eq]
  rfl

/-- A notice about a record and an event at a time (R58). -/
theorem Subject.notice_eq (x : Subject) (kind : NoticeKind) (value data : BitVec 32) :
    x.notice kind (low16 value) (low16 data) =
      { kind := kind, slot := BitVec.ofNat 8 x.slot.val, incarnation := x.incarnation, more := false, recovered := false,
        inlined := false, wake := false, coalesced := false, detail := 0, value := value.setWidth 16,
        data := data.setWidth 16, cls := kind.cls, coalescible := false } := by
  rw [low16_eq, low16_eq]
  rfl

/-- One REQUEST_ENDED notice for each listed entry of the port's (R63). -/
theorem endedNotices_eq (x : Subject) (detail : BitVec 2) (last : Seq) (time : Time) (p : Port) (ended : List Port) :
    endedNotices x detail last time p ended =
      List.replicate (ended.count p) (.one (endedNotice x detail last time)) := by
  rw [endedNotices, List.map_const', ← List.countP_eq_length_filter]
  rfl

theorem portHalf_eq (q : Port) : portHalf q = (match q with | .a => 0 | .b => 1 | .c => 2 | .d => 3) := by
  cases q <;> rfl

/-- Settles O42: one equation for each kind of job. -/
theorem jobNotices : Obligations.JobNotices := by
  refine ⟨?_, ?_⟩
  · intro m filters p o slot inc low time data
    have unfolded : (Job.publish [m]).noticesFor filters p = publishOne filters p m := rfl
    rw [unfolded, publishOne]
    refine congrArg₂ (· ++ ·) (congrArg₂ (· ++ ·) ?_ ?_) ?_
    · simp only [Bool.and_eq_true, bne_iff_ne, Published.published_eq]
      rfl
    · simp only [Published.limitNotices, Subject.notice_eq]
      cases m.limit <;> rfl
    · simp only [Published.answerNotices, answerNotice_eq, List.contains_iff_mem]
      rfl
  · intro filters p q about l time' b0 b1 g ports o note low time code ended bare
    refine ⟨?_, ?_, ?_, ?_, ?_, ?_, ?_, ?_, ?_, ?_⟩
    · simp only [Job.noticesFor, toStatus, Subject.notice_eq, eq_comm (a := q)]
      rfl
    · simp only [Job.noticesFor, answerNotice_eq, eq_comm (a := q)]
      rfl
    · simp only [Job.noticesFor, Subject.notice_eq, eq_comm (a := q)]
      rfl
    · simp only [Job.noticesFor, endedNotice, Subject.notice_eq, eq_comm (a := q)]
      rfl
    · simp only [Job.noticesFor, toStatus, portHalf_eq, low16_eq]
      rfl
    · simp only [Job.noticesFor, toStatus, portHalf_eq, low16_eq]
      rfl
    · simp only [Job.noticesFor, toStatus, endedNotices_eq, endedNotice, Subject.notice_eq]
      rfl
    · simp only [Job.noticesFor, toStatus, endedNotices_eq, endedNotice, Subject.notice_eq]
      rfl
    · simp only [Job.noticesFor, List.contains_iff_mem]
      rfl
    · simp only [Job.noticesFor, List.contains_iff_mem]
      rfl

/-! ### The notices of a group job (R50, R58, R60) -/

/-- MORE stands on every notice of a block but the last (R60). -/
theorem withMore_eq (ns : List Notice) :
    withMore ns = ns.mapIdx fun i n => { n with more := decide (i + 1 < ns.length) } := by
  induction ns with
  | nil => rfl
  | cons n ns ih =>
    cases ns with
    | nil => rfl
    | cons m rest =>
      rw [withMore, ih, List.mapIdx_cons]
      simp

theorem groupBlock_eq (filters : Vector Filter 8) (p : Port) (ms : List Published) :
    groupBlock filters p ms =
      (ms.filter fun m => (optionsFor filters m.subject.key).pub && m.producer != p).mapIdx fun i m =>
        { m.published (optionsFor filters m.subject.key) with
          more := decide (i + 1 < (ms.filter fun m => (optionsFor filters m.subject.key).pub && m.producer != p).length) } := by
  rw [groupBlock, withMore_eq, List.length_map]
  exact List.ext_getElem (by simp) fun i _ _ => by simp

theorem Options.given_foldl_union {given : Options → Bool}
    (hunion : ∀ x y, given (x.union y) = (given x || given y)) (os : List Options) (x : Options) :
    given (os.foldl Options.union x) = (given x || os.any given) := by
  induction os generalizing x with
  | nil => simp
  | cons o os ih => rw [List.foldl_cons, ih, hunion, List.any_cons, Bool.or_assoc]

/-- An option is given by a filter that is enabled and matches (R50). -/
theorem optionsFor_iff {given : Options → Bool} (hempty : given .empty = false)
    (hunion : ∀ x y, given (x.union y) = (given x || given y)) (filters : Vector Filter 8) (key : Key) :
    given (optionsFor filters key) = true ↔
      ∃ i : Fin 8, filters[i].enabled = true ∧ key &&& filters[i].mask = filters[i].key &&& filters[i].mask ∧
        given filters[i].options = true := by
  rw [optionsFor, Options.given_foldl_union hunion, hempty, Bool.false_or, List.any_eq_true]
  simp only [List.mem_map, List.mem_filter, Vector.mem_toList_iff, Vector.mem_iff_getElem, Filter.isMatch, Bool.and_eq_true,
    beq_iff_eq]
  constructor
  · rintro ⟨_, ⟨f, ⟨⟨i, hi, rfl⟩, hen, hkey⟩, rfl⟩, hg⟩
    exact ⟨⟨i, hi⟩, hen, hkey, hg⟩
  · rintro ⟨i, hen, hkey, hg⟩
    exact ⟨_, ⟨_, ⟨⟨i.val, i.isLt, rfl⟩, hen, hkey⟩, rfl⟩, hg⟩

/-- One notice for each member that has one. -/
theorem flatMap_ite_singleton {α β : Type} (l : List α) (f : α → Bool) (g : α → β) :
    l.flatMap (fun a => if f a = true then [g a] else []) = (l.filter f).map g := by
  induction l with
  | nil => rfl
  | cons a l ih =>
    rw [List.flatMap_cons, ih, List.filter_cons]
    split <;> rfl

/-- The LIMIT notice of a member that captured an outcome (R59). -/
def Published.limitNotice (m : Published) (o : Options) : Notice :=
  { kind := .limit, slot := BitVec.ofNat 8 m.subject.slot.val, incarnation := m.subject.incarnation, more := false,
    recovered := false, inlined := false, wake := o.wake, coalesced := false,
    detail := (match m.limit with | some .low => 1 | some .high => 2 | some .inside => 3 | none => 0),
    value := m.sequence.setWidth 16, data := m.commitTime.setWidth 16, cls := .urgent, coalescible := false }

theorem Published.limitNotices_eq (m : Published) (o : Options) :
    m.limitNotices o = if (m.limit.isSome && o.limits) = true then [.one (m.limitNotice o)] else [] := by
  rw [Published.limitNotices, Published.limitNotice]
  simp only [Subject.notice_eq]
  cases m.limit with
  | none => rfl
  | some d => cases d <;> rfl

/-- Settles O43: the block, then the notices of each member, and the union of R50 for each option. -/
theorem groupJobNotices : Obligations.GroupJobNotices := by
  refine ⟨?_, fun filters key => ⟨?_, ?_, ?_, ?_, ?_, ?_⟩⟩
  · intro x y more filters p ms o received time data note
    have unfolded : (Job.publish ms).noticesFor filters p = publishGroup filters p ms := rfl
    rw [unfolded, publishGroup, groupBlock_eq]
    refine congrArg₂ (· ++ ·) (congrArg₂ (· ++ ·) ?_ ?_) ?_
    · have block : ∀ l : List Notice, (match l with | [] => [] | n :: ns => [Handed.block (n :: ns)]) =
          if l = [] then [] else [Handed.block l] := fun l => by cases l <;> rfl
      refine (block _).trans ?_
      simp only [List.mapIdx_eq_nil_iff, Published.published_eq]
      rfl
    · simp only [Published.limitNotices_eq]
      exact flatMap_ite_singleton ms _ _
    · simp only [Published.answerNotices, answerNotice_eq]
      exact flatMap_ite_singleton ms _ _
  · exact optionsFor_iff rfl (fun _ _ => rfl) filters key
  · exact optionsFor_iff rfl (fun _ _ => rfl) filters key
  · exact optionsFor_iff rfl (fun _ _ => rfl) filters key
  · exact optionsFor_iff rfl (fun _ _ => rfl) filters key
  · exact optionsFor_iff rfl (fun _ _ => rfl) filters key
  · exact optionsFor_iff rfl (fun _ _ => rfl) filters key

end Sys2Proof.Machine
end

section
/-! PROOF. What the Notice Queue Manager decides: admission, the counting of a drop, and coalescing (R69 to R75, R86). -/

namespace Sys2Proof.Machine

variable {q : Queue} {n x : Notice} {es front back : List Notice} {k : Nat} {w dozing held : Bool} {now : Half}

/-! ### A drop counted (R71 to R73) -/

theorem raiseCount_eq (v : Half) (k : Nat) : raiseCount v k = BitVec.ofNat 16 (min (v.toNat + k) 65535) := by
  rw [raiseCount]
  split
  · rw [min_eq_left (by omega)]
  · rw [min_eq_right (by omega)]
    rfl

/-- Without an OVERFLOW notice at the tail a drop appends one. -/
theorem countDrop_of_other (h : ∀ n ∈ es.getLast?, n.kind ≠ .overflow) :
    countDrop k w now es = es ++ [overflowNotice (BitVec.ofNat 16 (min k 65535)) w now] := by
  have fresh : raiseCount 0 k = BitVec.ofNat 16 (min k 65535) := by
    rw [raiseCount_eq]
    simp
  induction es with
  | nil => rw [countDrop, fresh, List.nil_append]
  | cons y es ih =>
    cases es with
    | nil => rw [countDrop, if_neg (h y rfl), fresh]; rfl
    | cons z es =>
      rw [countDrop, ih (by rwa [List.getLast?_cons_cons] at h)]
      rfl

/-- An OVERFLOW notice at the tail counts the drop. -/
theorem countDrop_of_overflow (hn : es.getLast? = some n) (ho : n.kind = .overflow) :
    countDrop k w now es =
      es.dropLast ++ [{ n with value := BitVec.ofNat 16 (min (n.value.toNat + k) 65535), wake := n.wake || w }] := by
  induction es with
  | nil => cases hn
  | cons y es ih =>
    cases es with
    | nil =>
      obtain rfl : y = n := Option.some.inj hn
      rw [countDrop, if_pos ho, raiseCount_eq]
      rfl
    | cons z es =>
      rw [List.getLast?_cons_cons] at hn
      rw [countDrop, ih hn]
      rfl

/-- The OVERFLOW notice of a count. -/
theorem overflowNotice_eq (count : Half) (wake : Bool) (now : Half) :
    overflowNotice count wake now =
      { kind := .overflow, slot := 0xFF, incarnation := 0, more := false, recovered := false, inlined := false,
        wake := wake, coalesced := false, detail := 0, value := count, data := now, cls := .urgent,
        coalescible := false } := rfl

/-- What a drop leaves of the queue. -/
theorem Queue.drop_counted (q : Queue) (dozing : Bool) (now : Half) (k : Nat) (w : Bool) :
    (q.newestIsOverflow = false →
        (q.drop dozing now k w).entries =
          q.entries ++
            [{ kind := .overflow, slot := 0xFF, incarnation := 0, more := false, recovered := false, inlined := false,
               wake := w, coalesced := false, detail := 0, value := BitVec.ofNat 16 (min k 65535), data := now,
               cls := .urgent, coalescible := false }]) ∧
      (∀ n ∈ q.entries.getLast?, n.kind = .overflow →
        (q.drop dozing now k w).entries =
          q.entries.dropLast ++
            [{ n with value := BitVec.ofNat 16 (min (n.value.toNat + k) 65535), wake := n.wake || w }]) ∧
      { q.drop dozing now k w with entries := q.entries } = { q with wakePending := q.wakePending || (dozing && w) } := by
  refine ⟨fun h => ?_, fun n hn ho => countDrop_of_overflow hn ho, rfl⟩
  rw [← overflowNotice_eq]
  refine countDrop_of_other fun n hn ho => Bool.eq_false_iff.mp h ?_
  exact q.newestIsOverflow_iff_exists.mpr ⟨n, hn, ho⟩

/-! ### What is decided (R69, R70) -/

theorem Queue.decideOne_block (ha : q.accepting = true) (ns : List Notice) :
    q.decideOne dozing held now (.block ns) =
      if q.entries.length + ns.length ≤ q.threshold then q.append dozing ns else q.drop dozing now ns.length false := by
  simp only [Queue.decideOne, ha, if_true]
  rfl

/-- A notice without a coalescing target is decided by its class. -/
theorem Queue.decideOne_of_noTarget (ha : q.accepting = true)
    (ht : n.coalescible = true → coalescingTarget held n q.entries = none) :
    q.decideOne dozing held now (.one n) = q.byClass dozing now n := by
  have target : (if n.coalescible then coalescingTarget held n q.entries else none) = none := by
    split
    next h => exact ht h
    · rfl
  simp only [Queue.decideOne, ha, if_true, target]

theorem Queue.classLimit_eq (q : Queue) (c : NoticeClass) :
    q.classLimit c = if c = .normal then q.threshold else q.depth - 1 := by
  cases c <;> rfl

theorem Queue.byClass_of_lt (h : q.entries.length < if n.cls = .normal then q.threshold else q.depth - 1) :
    q.byClass dozing now n =
      { q with entries := q.entries ++ [n], wakePending := q.wakePending || (dozing && n.wake) } := by
  rw [← Queue.classLimit_eq] at h
  rw [Queue.byClass, if_pos (show q.fill < _ from h), Queue.append]
  simp

theorem Queue.byClass_of_le (h : (if n.cls = .normal then q.threshold else q.depth - 1) ≤ q.entries.length) :
    q.byClass dozing now n = q.drop dozing now 1 n.wake := by
  rw [← Queue.classLimit_eq] at h
  exact if_neg (not_lt.mpr h)

/-- Settles O44: blocks against the threshold, notices by their class. -/
theorem admissionAndOverflow : Obligations.AdmissionAndOverflow := by
  intro dozing held now q fill overflow counted
  refine ⟨rfl, q.newestIsOverflow_iff_exists, fun h ha => Queue.decideOne_discarding ha _ _ _ h, fun ns ha => ⟨fun hfit => ?_,
    fun hfull => ?_⟩, fun n ha hc => ?_⟩
  · rw [Queue.decideOne_block ha, if_pos hfit]
    rfl
  · rw [Queue.decideOne_block ha, if_neg (not_le.mpr hfull)]
    exact q.drop_counted dozing now ns.length false
  · intro limit
    have decided := Queue.decideOne_of_noTarget (dozing := dozing) (held := held) (now := now) ha (n := n)
      (by rw [hc]; nofun)
    refine ⟨fun hlt => ?_, fun hle => ?_⟩
    · rw [decided, Queue.byClass_of_lt hlt]
    · rw [decided, Queue.byClass_of_le hle]
      exact q.drop_counted dozing now 1 n.wake

/-! ### Coalescing (R74, R75) -/

/-- The entry is about the notice's slot and incarnation (R74). -/
def Notice.About (y n : Notice) : Prop := y.slot = n.slot ∧ y.incarnation = n.incarnation

theorem Notice.sameRecord_iff {y : Notice} : y.sameRecord n = true ↔ y.About n := by
  simp [Notice.sameRecord, Notice.About]

theorem newestAbout_eq_none (h : ∀ y ∈ es, ¬ y.About n) : newestAbout n es = none := by
  induction es with
  | nil => rfl
  | cons y es ih =>
    have other : ¬ y.sameRecord n = true := mt Notice.sameRecord_iff.mp (h y (List.mem_cons_self ..))
    simp only [newestAbout, ih fun z hz => h z (List.mem_cons_of_mem _ hz), other, if_false, Bool.false_eq_true]

theorem newestAbout_append (hx : x.About n) (hback : ∀ y ∈ back, ¬ y.About n) :
    newestAbout n (front ++ x :: back) = some front.length := by
  induction front with
  | nil => simp only [List.nil_append, newestAbout, newestAbout_eq_none hback, Notice.sameRecord_iff.mpr hx, if_true,
      List.length_nil]
  | cons y front ih => simp only [List.cons_append, newestAbout, ih, List.length_cons]

theorem coalescingTarget_append (hx : x.About n) (hback : ∀ y ∈ back, ¬ y.About n) :
    coalescingTarget held n (front ++ x :: back) =
      if x.kind = .published ∧ x.coalescible = true ∧ ¬ (held = true ∧ front.length = 0) then some front.length
      else none := by
  have here : (front ++ x :: back)[front.length]? = some x := by simp
  simp only [coalescingTarget, newestAbout_append hx hback, here]

theorem mergeAt_append : mergeAt n front.length (front ++ x :: back) = front ++ x.mergedWith n :: back := by
  induction front with
  | nil => rfl
  | cons y front ih => rw [List.length_cons, List.cons_append, mergeAt, ih, List.cons_append]

/-- Without a target a coalescible notice is decided as one that is not coalescible is, but for what it is appended as. -/
theorem Queue.decideOne_byClass (ha : q.accepting = true)
    (ht : coalescingTarget held n q.entries = none) :
    ((q.entries.length < if n.cls = .normal then q.threshold else q.depth - 1) →
        q.decideOne dozing held now (.one n) =
          { q with entries := q.entries ++ [n], wakePending := q.wakePending || (dozing && n.wake) }) ∧
      ((if n.cls = .normal then q.threshold else q.depth - 1) ≤ q.entries.length →
        q.decideOne dozing held now (.one n) = q.decideOne dozing held now (.one { n with coalescible := false })) := by
  have decided := Queue.decideOne_of_noTarget (dozing := dozing) (now := now) ha fun _ => ht
  have plain := Queue.decideOne_of_noTarget (dozing := dozing) (held := held) (now := now) ha
    (n := { n with coalescible := false }) nofun
  refine ⟨fun hlt => ?_, fun hle => ?_⟩
  · rw [decided, Queue.byClass_of_lt hlt]
  · rw [decided, plain, Queue.byClass_of_le hle, Queue.byClass_of_le (n := { n with coalescible := false }) hle]

/-- Settles O45: the newest entry about the record is the target, or there is none. -/
theorem coalescingMergesInPlace : Obligations.CoalescingMergesInPlace := by
  intro dozing held now q n ha hc about limit byClass
  refine ⟨fun hnone => ?_, fun x front back he hx hback => ⟨fun hk hxc hfree => ?_, fun hno => ?_⟩⟩
  · refine Queue.decideOne_byClass ha ?_
    rw [coalescingTarget, newestAbout_eq_none hnone]
  · have target : (if n.coalescible then coalescingTarget held n q.entries else none) = some front.length := by
      rw [if_pos hc, he, coalescingTarget_append hx hback, if_pos]
      refine ⟨hk, hxc, fun ⟨hh, hl⟩ => ?_⟩
      obtain h | h := hfree
      · rw [h] at hh
        cases hh
      · exact h (List.length_eq_zero_iff.mp hl)
    simp only [Queue.decideOne, ha, if_true, target]
    rw [he, mergeAt_append]
    rfl
  · refine Queue.decideOne_byClass ha ?_
    rw [he, coalescingTarget_append hx hback, if_neg]
    rintro ⟨hk, hxc, hfree⟩
    obtain h | h | ⟨hh, hl⟩ := hno
    · exact h hk
    · rw [h] at hxc
      cases hxc
    · exact hfree ⟨hh, by rw [hl]; rfl⟩

end Sys2Proof.Machine
end

section
/-! PROOF. The LEAVING entry: LEAVE, and the assertion of PRSTx on a joined port (R9, R99, R101, R102, R149, R155 to R157,
R162). -/

namespace Sys2Proof.Machine

variable {p q : Port} {s t u v w : State} {k : SlotNo} {r : Record}

/-! ### The check of the barrier and the grant after it (R101, R162) -/

/-- What the two do to a port: its vote is cleared, or not, and its copy phase turns to COPYING, or not. -/
theorem State.port_checkBarrier_grant (v : State) (q : Port) :
    ∃ b f, v.checkBarrier.grant.port q = { v.port q with vote := b, fetch := f } ∧
      (b = (v.port q).vote ∨ b = false) ∧ (f = (v.port q).fetch ∨ f = (v.port q).fetch.granted) := by
  obtain h | ⟨-, -, -, h⟩ := v.checkBarrier_cases
  · rw [h]
    obtain e | e := v.port_grant q
    · exact ⟨_, _, e, .inl rfl, .inl rfl⟩
    · exact ⟨_, _, e, .inl rfl, .inr rfl⟩
  · have run : v.enterRun.grant = v.enterRun := by
      rw [State.enterRun_eq, State.admitJob, State.grant_grant]
    rw [h, run, State.enterRun_eq]
    obtain e | e := v.running.port_admitJob (.mode v.generation v.activePorts) q
    · rw [State.port_running] at e
      exact ⟨_, _, e, .inr rfl, .inl rfl⟩
    · rw [State.port_running] at e
      exact ⟨_, _, e, .inr rfl, .inr rfl⟩

theorem PathGranted.checkBarrier (jobs : w.jobs = v.checkBarrier.jobs) (path : w.path = v.path)
    (last : w.lastGranted = v.lastGranted) (fetch : ∀ q, (w.port q).fetch = (v.port q).fetch) :
    PathGranted w v.checkBarrier.grant := by
  obtain h | ⟨-, -, -, h⟩ := v.checkBarrier_cases
  · rw [h] at jobs ⊢
    exact .of_agree jobs path last fetch
  · rw [h] at jobs ⊢
    rw [State.enterRun_eq, State.admitJob, State.grant_grant]
    have entered : v.enterRun.jobs = v.jobs ++ [.mode v.generation v.activePorts] := by simp
    refine .of_agree (jobs.trans entered) path last fun q => (fetch q).trans ?_
    cases q <;> rfl

theorem State.checkBarrier_of_holds (hm : v.mode = .setup) (hb : v.barrierHolds = true) (hr : v.jobs.length < 16) :
    v.checkBarrier = v.enterRun := by
  rw [State.checkBarrier, hm]
  simp only [hb, State.hasRoom_iff.mpr hr, Bool.and_self, if_true]

theorem State.checkBarrier_of_fails (h : ¬ (v.mode = .setup ∧ v.barrierHolds = true ∧ v.jobs.length < 16)) :
    v.checkBarrier = v := by
  obtain e | ⟨hm, hb, hr, -⟩ := v.checkBarrier_cases
  · exact e
  · exact absurd ⟨hm, hb, State.hasRoom_iff.mp hr⟩ h

/-! ### The entry before the check of the barrier (R156) -/

/-- The update of a record closed where its slot is on the open list (R36). -/
def State.closing (s : State) (p : Port) (k : SlotNo) (r : Record) : Record :=
  { r with
    next := match r.next with
      | .staging c x => .staging c (if k ∈ (s.port p).openList then none else x)
      | .owed c => .owed c }

theorem State.closing_of_listed (h : k ∈ (s.port p).openList) : s.closing p k r = r.closed := by
  obtain ⟨key, depth, versions, next, spares, last, period, auto, life, watch⟩ := r
  cases next with
  | staging c x => simp only [State.closing, Record.closed, h, if_true]
  | owed c => rfl

theorem State.closing_of_other (h : k ∉ (s.port p).openList) : s.closing p k r = r := by
  obtain ⟨key, depth, versions, next, spares, last, period, auto, life, watch⟩ := r
  cases next with
  | staging c x => simp only [State.closing, h, if_false]
  | owed c => rfl

theorem State.closing_owed {c : CellNo} : (s.closing p k r).next = .owed c ↔ r.next = .owed c := by
  rw [State.closing]
  cases r.next <;> simp

/-- The port's unit after the entry; pins, transaction and result are those of `w` (R156, R157). -/
def State.leftPort (s : State) (p : Port) (w : PortUnit) : PortUnit :=
  { s.port p with
    state := if s.producedSlots p = [] then .offline else .leaving,
    vote := false, filters := Vector.replicate 8 noFilter,
    queue := { (s.port p).queue with
      entries := [], accepting := false, wakePending := false,
      irq := { urgent := true, level := true, fetch := true, levelAt := 1 } },
    openList := [], stagingPointer := none,
    fetch := .idle, fetchedSlot := none,
    header := { slot := 0, sequence := 0, commitTime := 0, length := 0, tag := none }, payload := [], valid := 0,
    prst := w.prst, transaction := w.transaction, result := w.result, rdata := w.rdata }

/-- The LEAVING entry takes `s` to `t`, the check of the barrier and the grant aside. -/
structure State.LeftTo (s : State) (p : Port) (t : State) : Prop where
  port : t.port p = s.leftPort p (t.port p)
  others : ∀ q, q ≠ p → t.port q = s.port q
  slots : ∀ k, t.slot k =
    { incarnation := (s.slot k).incarnation, record := ((s.unpinnedBy p).record k).map (s.closing p k) }
  entries : EntriesRemoved (fun e => e.requester == p) s t
  cells : ∀ c, t.cell c =
    { s.cell c with pins := if (s.port p).fetch.pinned = some c then (s.cell c).pins - 1 else (s.cell c).pins }
  pool : t.free = (s.unpinnedBy p).free ∧ t.detached = (s.unpinnedBy p).detached
  path : t.path = (match (s.port p).fetch with | .inFlight .copying _ => none | _ => s.path)
  last : t.lastGranted = s.lastGranted
  jobs : t.jobs = s.jobs
  settings : t.tickPeriod = s.tickPeriod ∧ t.answerTimeout = s.answerTimeout ∧ t.orphanHold = s.orphanHold ∧
    t.generation = s.generation ∧ t.resetPin = s.resetPin ∧ t.ready = s.ready ∧ t.pending = s.pending
  clocks : t.mode = s.mode ∧ t.etc = s.etc ∧ t.prescaler = s.prescaler ∧ t.scan = s.scan

/-- Before the entry a command taken in hand, or the level of PRSTx, may have changed the port's unit so: nothing that
the entry keeps. -/
structure PortUnit.Leaves (u u' : PortUnit) : Prop where
  openList : u'.openList = u.openList
  fetch : u'.fetch = u.fetch
  left : u'.left =
    { u.left with prst := u'.prst, transaction := u'.transaction, result := u'.result, rdata := u'.rdata }

theorem PortUnit.Leaves.handed (u : PortUnit) : u.Leaves { u.endDoze with transaction := .discarding } where
  openList := by simp
  fetch := by simp
  left := by
    unfold PortUnit.endDoze
    split <;> rfl

theorem PortUnit.Leaves.prstAsserted (u : PortUnit) : u.Leaves u.prstAsserted := ⟨rfl, rfl, rfl⟩

/-- The state in which the fetch is about to be cancelled agrees with `s` on storage, its updates closed. -/
structure State.ClosedFrom (s : State) (p : Port) (u : State) : Prop where
  cells : u.cells = s.cells
  free : u.free = s.free
  detached : u.detached = s.detached
  record : ∀ k, u.record k = (s.record k).map (s.closing p k)

theorem State.ClosedFrom.unpinned (h : s.ClosedFrom p u) :
    (u.cancelFetch (s.port p).fetch).free = (s.unpinnedBy p).free ∧
      (u.cancelFetch (s.port p).fetch).detached = (s.unpinnedBy p).detached ∧
      ∀ k, (u.cancelFetch (s.port p).fetch).record k = ((s.unpinnedBy p).record k).map (s.closing p k) := by
  obtain ⟨cells, free, detached, record⟩ := h
  cases hf : (s.port p).fetch with
  | idle =>
    simp only [State.unpinnedBy, hf, FetchState.pinned]
    exact ⟨free, detached, record⟩
  | ready =>
    simp only [State.unpinnedBy, hf, FetchState.pinned]
    exact ⟨free, detached, record⟩
  | inFlight x c =>
    simp only [State.unpinnedBy, hf, FetchState.pinned, State.cancelFetch_inFlight]
    exact State.unpinCell_congr (f := s.closing p) cells free detached record (fun _ _ => State.closing_owed)
      fun k r hr => by simp [State.closing, hr]

/-- The routing of an unpinned cell changes no producer (R9). -/
theorem State.producer_unpinnedBy (s : State) (p : Port) (k : SlotNo) : (s.unpinnedBy p).producer k = s.producer k := by
  unfold State.unpinnedBy
  split
  next c _ =>
    unfold State.producer
    obtain h | ⟨r, hr, -, h⟩ := s.record_unpinCell c k
    · rw [h]
    · rw [h, hr]
      rfl
  · rfl

theorem State.ClosedFrom.producedSlots (h : s.ClosedFrom p u) :
    (u.cancelFetch (s.port p).fetch).producedSlots p = s.producedSlots p := by
  have producer : ∀ k, (u.cancelFetch (s.port p).fetch).producer k = s.producer k := fun k => by
    rw [← State.producer_unpinnedBy s p, State.producer, State.producer, h.unpinned.2.2 k]
    cases (s.unpinnedBy p).record k <;> rfl
  simp only [State.producedSlots, producer]

theorem State.cell_cancelFetch (u : State) (f : FetchState) (c : CellNo) :
    (u.cancelFetch f).cell c =
      { u.cell c with pins := if f.pinned = some c then (u.cell c).pins - 1 else (u.cell c).pins } := by
  cases f with
  | idle => simp [FetchState.pinned]
  | ready => simp [FetchState.pinned]
  | inFlight x d =>
    rw [State.cancelFetch_inFlight, State.cell_unpinCell]
    by_cases h : c = d
    · subst h
      simp [FetchState.pinned]
    · have h' : d ≠ c := fun e => h e.symm
      simp [FetchState.pinned, h, h']

theorem State.path_cancelFetch_eq (u : State) (f : FetchState) :
    (u.cancelFetch f).path = (match f with | .inFlight .copying _ => none | _ => u.path) := by
  rw [State.path_cancelFetch]
  cases f with
  | inFlight x c => cases x <;> simp
  | idle => simp
  | ready => simp

theorem State.leftUnit_closed {f : PortUnit → PortUnit} (hf : (s.port p).Leaves (f (s.port p))) :
    s.ClosedFrom p ((s.updatePort p f).leftUnit p) where
  cells := by simp
  free := by simp
  detached := by simp
  record k := by
    rw [State.record_leftUnit, State.port_updatePort, hf.openList, State.record_updatePort]
    split
    next h => exact Option.map_congr fun r _ => (State.closing_of_listed h).symm
    next h =>
      have same : s.closing p k = id := funext fun r => State.closing_of_other h
      rw [same, Option.map_id, id]

theorem Slot.eq_of_fields {x y : Slot} (hi : x.incarnation = y.incarnation) (hr : x.record = y.record) : x = y := by
  cases x
  cases y
  simp_all

/-- The entry, made after the port's unit was changed so. -/
theorem State.LeftTo.leftBy {f : PortUnit → PortUnit} (hf : (s.port p).Leaves (f (s.port p))) :
    s.LeftTo p ((s.updatePort p f).leftBy p) := by
  have closed := State.leftUnit_closed hf
  obtain ⟨free, detached, record⟩ := closed.unpinned
  have fetch : ((s.updatePort p f).port p).fetch = (s.port p).fetch := by rw [State.port_updatePort, hf.fetch]
  have unit : ((s.updatePort p f).leftUnit p).port p = (f (s.port p)).left := by
    rw [State.port_leftUnit, if_pos rfl, State.port_updatePort]
  rw [State.leftBy_eq, fetch]
  constructor
  · rw [State.port_settleLeaving, State.port_cancelFetch, unit, closed.producedSlots, hf.left, State.leftPort]
    by_cases hs : s.producedSlots p = []
    · simp only [hs, and_true, true_and, if_true]
      rfl
    · simp only [hs, and_false, if_false]
      rfl
  · intro q hq
    rw [State.port_settleLeaving, State.port_cancelFetch, State.port_leftUnit, if_neg hq, State.port_updatePort_ne _ _ hq]
    simp [hq]
  · intro k
    refine Slot.eq_of_fields (by simp) ?_
    rw [← record k]
    exact State.record_settleLeaving _ p k
  · intro i
    simp
  · intro c
    rw [State.cell_settleLeaving, State.cell_cancelFetch]
    simp
  · simp [free, detached]
  · have settled (v : State) : (v.settleLeaving p).path = v.path := by simp
    rw [settled, State.path_cancelFetch_eq]
    simp
  · simp [State.leftUnit]
  · simp
  · simp [State.leftUnit]
  · simp

/-! ### The check of the barrier by the entry (R162) -/

theorem State.LeftTo.unit (h : s.LeftTo p t) :
    (t.port p).vote = false ∧ (t.port p).fetch = .idle ∧ (t.port p).state ≠ .active := by
  rw [h.port]
  refine ⟨rfl, rfl, ?_⟩
  rw [State.leftPort]
  split <;> nofun

/-- The port that left votes no more: the others' votes decide. -/
theorem State.LeftTo.activePorts (h : s.LeftTo p t) : t.activePorts = s.otherActive p := by
  refine List.filter_congr fun q _ => ?_
  by_cases hq : q = p
  · subst hq
    simp [h.unit.2.2]
  · simp [h.others q hq, hq]

theorem State.LeftTo.barrierHolds (h : s.LeftTo p t) :
    t.barrierHolds = true ↔ s.otherActive p ≠ [] ∧ ∀ q ∈ s.otherActive p, (s.port q).vote = true := by
  rw [State.barrierHolds, h.activePorts, Bool.and_eq_true, Bool.not_eq_true', List.isEmpty_eq_false_iff, List.all_eq_true]
  refine and_congr_right fun _ => forall₂_congr fun q hq => ?_
  have other : q ≠ p := by
    simp only [State.otherActive, List.mem_filter, Bool.and_eq_true, bne_iff_ne] at hq
    exact hq.2.1
  rw [h.others q other]

theorem State.LeftTo.port_final (h : s.LeftTo p u) : u.checkBarrier.grant.port p = u.port p := by
  obtain ⟨hvote, hfetch, -⟩ := h.unit
  obtain ⟨b, f, e, hb, hf⟩ := u.port_checkBarrier_grant p
  rw [hvote, or_self] at hb
  rw [hfetch] at hf
  have idle : f = .idle := hf.elim id id
  rw [e, hb, idle]
  generalize u.port p = x at *
  cases x
  simp_all

theorem State.LeftTo.others_final (h : s.LeftTo p u) (hq : q ≠ p) :
    { u.checkBarrier.grant.port q with fetch := (s.port q).fetch, vote := (s.port q).vote } = s.port q := by
  obtain ⟨b, f, e, -, -⟩ := u.port_checkBarrier_grant q
  rw [e, h.others q hq]

theorem State.LeftTo.granted (h : s.LeftTo p u) :
    PathGranted
      { s.updatePort p (fun u => { u with fetch := .idle }) with
        path := (match (s.port p).fetch with | .inFlight .copying _ => none | _ => s.path),
        jobs := u.checkBarrier.grant.jobs } u.checkBarrier.grant := by
  refine PathGranted.checkBarrier (by simp) h.path.symm (by simp [h.last]) fun q => ?_
  have same : ∀ w : State, ∀ a b, State.port { w with path := a, jobs := b } q = w.port q := fun w a b => by
    cases q <;> rfl
  rw [same, State.port_updatePort_eq]
  split
  next hq =>
    subst hq
    exact h.unit.2.1.symm
  next hq => rw [h.others q hq]

/-- The last clause of the entry's effects. -/
theorem State.LeftTo.barrier (h : s.LeftTo p u) :
    if s.mode = .setup ∧ s.otherActive p ≠ [] ∧ (∀ q ∈ s.otherActive p, (s.port q).vote = true) ∧ s.jobs.length < 16 then
      u.checkBarrier.grant.mode = .run ∧ u.checkBarrier.grant.etc = 0 ∧ u.checkBarrier.grant.prescaler = 0 ∧
        u.checkBarrier.grant.scan = 0 ∧ (∀ q, (u.checkBarrier.grant.port q).vote = false) ∧
        u.checkBarrier.grant.jobs = s.jobs ++ [.mode s.generation (s.otherActive p)]
    else
      u.checkBarrier.grant.mode = s.mode ∧ u.checkBarrier.grant.etc = s.etc ∧
        u.checkBarrier.grant.prescaler = s.prescaler ∧ u.checkBarrier.grant.scan = s.scan ∧
        (∀ q, q ≠ p → (u.checkBarrier.grant.port q).vote = (s.port q).vote) ∧ u.checkBarrier.grant.jobs = s.jobs := by
  obtain ⟨hmode, hetc, hprescaler, hscan⟩ := h.clocks
  split
  next hc =>
    obtain ⟨hm, hne, hv, hroom⟩ := hc
    obtain ⟨-, -, -, generation, -⟩ := h.settings
    rw [State.checkBarrier_of_holds (hmode.trans hm) (h.barrierHolds.mpr ⟨hne, hv⟩) (by rwa [h.jobs])]
    simp [h.jobs, h.activePorts, generation]
  next hc =>
    have stays : u.checkBarrier = u := State.checkBarrier_of_fails fun ⟨hm, hb, hroom⟩ => by
      obtain ⟨hne, hv⟩ := h.barrierHolds.mp hb
      exact hc ⟨hmode.symm.trans hm, hne, hv, by rwa [h.jobs] at hroom⟩
    rw [stays]
    refine ⟨by simp [hmode], by simp [hetc], by simp [hprescaler], by simp [hscan], fun q hq => ?_, by simp [h.jobs]⟩
    rw [(u.grant_portFields q).2.1, h.others q hq]

theorem State.LeftTo.effects (h : s.LeftTo p u) : LeavingEffects p s u.checkBarrier.grant := by
  refine ⟨?_, fun k => ?_, fun i => ?_, fun c => ?_, ?_, fun q hq => h.others_final hq, h.granted, ?_, h.barrier⟩
  · rw [h.port_final]
    exact h.port
  · rw [State.slot_grant, State.slot_checkBarrier]
    exact h.slots k
  · rw [State.entry_grant, State.entry_checkBarrier]
    exact h.entries i
  · rw [State.cell_grant, State.cell_checkBarrier]
    exact h.cells c
  · simpa using h.pool
  · simpa using h.settings

/-! ### LEAVE, and the assertion of PRSTx (R149, R155) -/

/-- A result written after the entry is no part of its effects. -/
theorem LeavingEffects.setResult (h : LeavingEffects p s t) (x : Result) (d : List Byte) :
    LeavingEffects p s (t.setResult p x d) := by
  obtain ⟨port, slots, entries, cells, pool, others, path, settings, barrier⟩ := h
  have unit : ∀ q, (((t.setResult p x d).port q).vote = (t.port q).vote) ∧
      ((t.setResult p x d).port q).fetch = (t.port q).fetch := fun q => by
    rw [State.port_setResult]
    split <;> exact ⟨rfl, rfl⟩
  have jobs : (t.setResult p x d).jobs = t.jobs := by simp
  refine ⟨?_, fun k => ?_, fun i => ?_, fun c => ?_, ?_, fun q hq => ?_, ?_, ?_, ?_⟩
  · rw [State.port_setResult, if_pos rfl]
    exact congrArg (fun w : PortUnit => { w with result := x, rdata := rdataOf d }) port
  · rw [State.slot_setResult]
    exact slots k
  · rw [State.entry_setResult]
    exact entries i
  · rw [State.cell_setResult]
    exact cells c
  · simpa using pool
  · rw [State.port_setResult, if_neg hq]
    exact others q hq
  · obtain ⟨holder, last, fetch⟩ := path
    rw [jobs]
    exact ⟨by simpa using holder, by simpa using last, fun q => (unit q).2.trans (fetch q)⟩
  · simpa using settings
  · simpa only [unit, State.setResult_fields] using barrier

theorem State.leavingEntry_eq (s : State) (p : Port) : s.leavingEntry p = (s.leftBy p).checkBarrier.grant := rfl

/-- The entry of a port whose unit was changed so before it. -/
theorem LeavingEffects.leavingEntry {f : PortUnit → PortUnit} (hf : (s.port p).Leaves (f (s.port p))) :
    LeavingEffects p s ((s.updatePort p f).leavingEntry p) ∧
      (((s.updatePort p f).leavingEntry p).port p).transaction = (f (s.port p)).transaction ∧
      (((s.updatePort p f).leavingEntry p).port p).prst = (f (s.port p)).prst ∧
      (((s.updatePort p f).leavingEntry p).port p).result = (f (s.port p)).result ∧
      (((s.updatePort p f).leavingEntry p).port p).rdata = (f (s.port p)).rdata := by
  have left := State.LeftTo.leftBy hf
  have unit : ((s.updatePort p f).leavingEntry p).port p = ((s.updatePort p f).leftBy p).port p := by
    rw [State.leavingEntry_eq, left.port_final]
  have kept : (((s.updatePort p f).leftUnit p).port p) = (f (s.port p)).left := by
    rw [State.port_leftUnit, if_pos rfl, State.port_updatePort]
  refine ⟨left.effects, ?_⟩
  rw [unit, State.leftBy_eq, State.port_settleLeaving, State.port_cancelFetch, kept]
  exact ⟨rfl, rfl, rfl, rfl⟩

theorem Command.check_leave {m : Mode} : Command.leave.check .active m = none := by
  cases m <;> rfl

theorem exec_prstxAssert_of_joined (hj : s.Joined p) (hp : (s.port p).prst = false) :
    exec (.prstxAssert p) s = .next ((s.updatePort p PortUnit.prstAsserted).leavingEntry p) := by
  have unfolded : exec (.prstxAssert p) s = execPrstxAssert p s := rfl
  rw [unfolded, execPrstxAssert, hp]
  obtain ha | hd := hj
  · simp only [ha, Bool.false_eq_true, if_false]
  · simp only [hd, Bool.false_eq_true, if_false]

/-- Settles O6: the entry, from the unit that the command, or the pin, left. -/
theorem leaveAndPrstxMakeTheLeavingEntry : Obligations.LeaveAndPrstxMakeTheLeavingEntry := by
  refine ⟨fun p v s h hj => ?_, fun p s hj hp => ?_⟩
  · have check : Command.leave.check (s.port p).endDoze.state s.mode = none := by
      rw [hj.endDoze_state]
      exact Command.check_leave
    obtain ⟨effects, transaction, prst, -, -⟩ := LeavingEffects.leavingEntry (s := s)
      (f := fun u => { u.endDoze with transaction := .discarding }) (.handed (s.port p))
    refine ⟨_, h.answers v check, effects.setResult .ok [], ?_, ?_, ?_, ?_⟩
    · simp [Command.body, State.conclude]
    · simp [Command.body, State.conclude, rdataOf_nil]
    · simp only [Command.body, State.conclude, State.port_setResult, if_true]
      exact transaction
    · simp only [Command.body, State.conclude, State.port_setResult, if_true]
      obtain ⟨-, released, -⟩ := h
      refine prst.trans ?_
      simpa using released
  · obtain ⟨effects, transaction, prst, result, rdata⟩ := LeavingEffects.leavingEntry (s := s)
      (f := PortUnit.prstAsserted) (.prstAsserted (s.port p))
    exact ⟨_, exec_prstxAssert_of_joined hj hp, effects, result, rdata, transaction, prst⟩

end Sys2Proof.Machine
end
